-- ==== Sys2Proof/Word.lean ====
section
/-! DEFINITION. The word types of TRB: bytes, byte sequences, identifiers, profile codes, text (spec/00_scope.md R10, R11). -/

namespace Sys2Proof

/-- A byte: an unsigned 8-bit value (00_scope.md R10). -/
abbrev Byte := BitVec 8

/-- A byte sequence, first byte first (00_scope.md R11). -/
abbrev Bytes := List Byte

/-- A normalised 48-bit device id (30_encoding.md R91). -/
abbrev Id48 := BitVec 48

/-- A 24-bit profile code, RORG in bits 23 to 16, FUNC in 15 to 8, TYPE in 7 to 0 (30_encoding.md R94). -/
abbrev Eep := BitVec 24

/-- A text at the host's interfaces: a list of characters (30_encoding.md R104 to R107). -/
abbrev Text := List Char

end Sys2Proof
end

