-- ==== Sys2Proof/Config.lean ====
section
/-! DEFINITION. The parameters of TRB (spec/00_scope.md R9) as one record of plain data, the types of the values they mention, and the
free values of profiles the spec leaves open. The defaults are in Sys2Proof/Machine/Tables.lean. -/

namespace Sys2Proof

/-- The byte order of `data_length`, parameter `LEN_ORDER` (20_memory.md R50). -/
inductive LenOrder where
  | big
  | little
  deriving DecidableEq, Repr

/-- What the Reassembler does with an over-long buffer, parameter `OVERRUN_POLICY`: no other value than `discard` is specified
(42_reassembler.md R146, 92_eei_decisions.md D2). -/
inductive OverrunPolicy where
  | discard
  deriving DecidableEq, Repr

/-- The width of an originator id on the wire: "3/4/6 bytes" (30_encoding.md R92). -/
inductive IdWidth where
  | w3
  | w4
  | w6
  deriving DecidableEq, Repr

/-- One entry of `AC_TABLE` that is not reserved: the originator width and whether a 4-byte destination id follows
(30_encoding.md R92). -/
structure AcRow where
  width : IdWidth
  hasDid : Bool
  deriving DecidableEq, Repr

/-- A run of bits `hi` down to `lo` of the payload byte at index `byte` (30_encoding.md R98, R100). -/
structure BitRange where
  byte : Nat
  hi : Nat
  lo : Nat
  deriving DecidableEq, Repr

/-- A field of a Teach-In payload: bit runs from the most significant to the least (20_memory.md R52, 41_bitfield.md R133). -/
abbrev FieldSpec := List BitRange

/-- The bit positions of a 4BS Teach-In payload (30_encoding.md R98). -/
structure Layout4bs where
  func : FieldSpec
  type : FieldSpec
  manuf : FieldSpec
  lrnType : FieldSpec
  deriving DecidableEq, Repr

/-- The bit positions of a Universal Teach-In payload (30_encoding.md R100). -/
structure LayoutUte where
  dir : FieldSpec
  noresp : FieldSpec
  result : FieldSpec
  cmd : FieldSpec
  channels : FieldSpec
  manuf : FieldSpec
  type : FieldSpec
  func : FieldSpec
  rorg : FieldSpec
  deriving DecidableEq, Repr

/-- What `TEACHIN_4BS` yields for a payload: "option of (profile code option, manufacturer option)" (00_scope.md R9). -/
structure Yield4bs where
  eep : Option Eep
  manuf : Option (BitVec 11)
  deriving DecidableEq, Repr

/-- The fields that only a Universal Teach-In carries (45_erp1.md R213). -/
structure Ute where
  dir : Nat
  noresp : Nat
  result : Nat
  cmd : Nat
  channels : Nat
  deriving DecidableEq, Repr

/-- What `TEACHIN_UTE` yields for a payload (45_erp1.md R207, R213). -/
structure YieldUte where
  eep : Eep
  manuf : BitVec 11
  ute : Ute
  deriving DecidableEq, Repr

/-- A value of parameter `TEACHIN_4BS`, a "function 4 bytes → option of (profile code option, manufacturer option)" (00_scope.md R9): the
bit positions of the fields, or the function written out, payload by payload, with what every payload not listed yields. Every such
function has the second form, since there are finitely many payloads (assumption 3). -/
inductive Teachin4bs where
  | layout (l : Layout4bs)
  | table (rows : List (Bytes × Yield4bs)) (others : Yield4bs)
  deriving DecidableEq, Repr

/-- A value of parameter `TEACHIN_UTE`, a "function 7 bytes → record" (00_scope.md R9), in the same two forms (assumption 3). -/
inductive TeachinUte where
  | layout (l : LayoutUte)
  | table (rows : List (Bytes × YieldUte)) (others : YieldUte)
  deriving DecidableEq, Repr

/-- The names of the fields in a Report's value map (46_eep_dispatch.md R229, 47_profiles.md R241, R244). `other` names a field of a
profile that the spec leaves open. -/
inductive FieldName where
  | contact
  | temperatureRaw
  | temperature
  | eep
  | manuf
  | dir
  | noresp
  | result
  | cmd
  | channels
  | other (n : Nat)
  deriving DecidableEq, Repr

/-- A number in a Report's value map (46_eep_dispatch.md R229): a raw integer, or an engineering value kept in both of its forms
(47_profiles.md R245): exactly as the fraction `num / den`, and rounded to `digits` decimal digits as `mantissa / 10 ^ digits`. Numbers
are signed: an open profile reads down to -20 (47_profiles.md R247). -/
inductive Val where
  | raw (n : Int)
  | measured (num : Int) (den : Nat) (mantissa : Int) (digits : Nat)
  deriving DecidableEq, Repr

/-- The description code of a Report (46_eep_dispatch.md R229). `temperature` carries the rounded value, as mantissa and number of
decimal digits (47_profiles.md R244); `other` is a description of a profile that the spec leaves open. -/
inductive Desc where
  | closed
  | opened
  | temperature (mantissa : Int) (digits : Nat)
  | other (n : Nat)
  deriving DecidableEq, Repr

/-- The decoder of a `PROFILE_TABLE` entry, a closed tagged variant (10_state.md R31): the two that the spec defines, and one tag for
each profile that it leaves open (47_profiles.md R248). -/
inductive ProfileDec where
  | contactSwitch
  | temperature
  | other (k : Nat)
  deriving DecidableEq, Repr

/-- One row of `PROFILE_TABLE`: the key, the expected Data_DL length `L`, the decoder (46_eep_dispatch.md R221). -/
structure ProfileRow where
  code : Eep
  len : Nat
  dec : ProfileDec
  deriving DecidableEq, Repr

/-- The parameters of 00_scope.md R9 that TRB itself reads. `REG` and `CHUNKING` of that table are the host's: the registry is a field
of State, the chunking is the list of chunks in State's input. -/
structure Config where
  /-- `CRC8_TABLE`, 256 entries (40_crc8.md R121). -/
  crc8Table : List Byte
  /-- `LEN_ORDER` (20_memory.md R50). -/
  lenOrder : LenOrder
  /-- `BUF_CAP` (10_state.md R22). -/
  bufCap : Nat
  /-- `OVERRUN_POLICY` (42_reassembler.md R146). -/
  overrunPolicy : OverrunPolicy
  /-- `AC_TABLE`, 8 entries, `none` for reserved (30_encoding.md R92). -/
  acTable : List (Option AcRow)
  /-- `TT_TABLE`, 16 entries (30_encoding.md R93). -/
  ttTable : List (Option Byte)
  /-- `TEACHIN_4BS` (30_encoding.md R98). -/
  teachin4bs : Teachin4bs
  /-- `TEACHIN_UTE` (30_encoding.md R100). -/
  teachinUte : TeachinUte
  /-- `PROFILE_TABLE` (46_eep_dispatch.md R221). -/
  profileTable : List ProfileRow
  /-- `VALUE_DIGITS` (47_profiles.md R245). -/
  valueDigits : Nat
  /-- `OPT_TABLE`: packet type and offset of its dBm byte (30_encoding.md R101). -/
  optTable : List (Byte × Nat)
  deriving DecidableEq, Repr

/-- The value map that open profile number `k` computes from a payload: a free value, nothing constrains it (assumption 9;
47_profiles.md R248, 93_implementation_defined.md U11). -/
opaque Config.otherValue : Nat → Bytes → List (FieldName × Val)

/-- The description that open profile number `k` gives a payload: a free value (assumption 9). -/
opaque Config.otherDesc : Nat → Bytes → Option Desc

/-- The payload-level learn flag that open profile number `k` gives a payload: a free value (assumption 9; "`learn` set by the
profile's own rule", 47_profiles.md R248). -/
opaque Config.otherLearn : Nat → Bytes → Bool

/-! What the extractors give for operands that their rules do not admit: free values, functions of the operands because the extractors
are stateless (41_bitfield.md R130 to R136; assumption 28). -/

/-- `FIELD(b, hi, lo)` for `hi < lo`, which has no width. -/
opaque Config.openField : Byte → Nat → Nat → Nat

/-- `CAT(a, b)` for an operand that does not fit its width. -/
opaque Config.openCat : Nat → Nat → Nat → Nat → Nat

/-- `U16(B, a)` past the end of `B`, "Width 16 bits". -/
opaque Config.openU16 : LenOrder → Bytes → Nat → BitVec 16

/-- `SLICE(B, a, b)` past the end of `B`. -/
opaque Config.openSlice : Bytes → Nat → Nat → Bytes

/-- `IDNORM(I)` for another length than 3, 4 and 6, "48 bits". -/
opaque Config.openIdnorm : Bytes → Id48

/-- The byte of `FRAME` at an offset that `FRAME` does not reach: a free value, for an operation of the frame decoder run on a `FRAME` that
is no complete frame (43_esp3_frame.md R160; assumption 32). -/
opaque Config.openFrame : Bytes → Nat → Byte

/-- The bytes of Data_DL where a profile operation is run and none has been sliced: a free value for each time, numbered by the counter
in State (assumption 29). -/
opaque Config.absentPayload : Nat → Bytes

end Sys2Proof
end

