-- ==== Sys2Proof/Machine/Operands.lean ====
section
/-! DEFINITION. The bit-field extractors of spec/41_bitfield.md, the fields of the ERP2 header byte, and the fields of the Teach-In
payloads. -/

namespace Sys2Proof.Machine

/-- `BIT(b, i) = (b >> i) mod 2` (41_bitfield.md R131). -/
def bfBit (b : Byte) (i : Nat) : Nat := (b.toNat >>> i) % 2

/-- `FIELD(b, hi, lo) = (b >> lo) mod 2^(hi-lo+1)` (41_bitfield.md R132). -/
def bfField (b : Byte) (hi lo : Nat) : Nat := (b.toNat >>> lo) % 2 ^ (hi - lo + 1)

/-- `CAT(a, b) = a * 2^wb + b` (41_bitfield.md R133). -/
def bfCat (a b wb : Nat) : Nat := a * 2 ^ wb + b

/-- `B[i]`; every calling rule states the guard that keeps `i` inside `B` (00_scope.md R11). -/
def byteAt (bytes : Bytes) (i : Nat) : Byte := bytes.getD i 0

/-- `U16(B, a)` in the byte order `LEN_ORDER` (41_bitfield.md R134, 20_memory.md R50). -/
def bfU16 (order : LenOrder) (bytes : Bytes) (a : Nat) : Nat :=
  match order with
  | .big => (byteAt bytes a).toNat * 256 + (byteAt bytes (a + 1)).toNat
  | .little => (byteAt bytes (a + 1)).toNat * 256 + (byteAt bytes a).toNat

/-- `SLICE(B, a, b) = B[a..b)` (41_bitfield.md R135). -/
def bfSlice (bytes : Bytes) (a b : Nat) : Bytes := (bytes.drop a).take (b - a)

/-- The value of a byte string, first byte most significant (20_memory.md R51). -/
def bytesValue (bytes : Bytes) : Nat := bytes.foldl (fun v b => v * 256 + b.toNat) 0

/-- `IDNORM(I)`, 48 bits (41_bitfield.md R136, 30_encoding.md R91). -/
def bfIdnorm (id : Bytes) : Id48 := BitVec.ofNat 48 (bytesValue id)

/-- The bytes of an originator id of this width (30_encoding.md R92). -/
def widthBytes : IdWidth → Nat
  | .w3 => 3
  | .w4 => 4
  | .w6 => 6

/-- The width of the destination id that an `AC_TABLE` row announces: 4 or 0 (30_encoding.md R92). -/
def didBytes (row : AcRow) : Nat := if row.hasDid then 4 else 0

/-- The least length of an ERP2 data region with this addressing: `w + v + 2` (30_encoding.md R90). -/
def acNeed (row : AcRow) : Nat := widthBytes row.width + didBytes row + 2

/-- `AC`, bits 7 to 5 of the ERP2 header byte (44_erp2.md R182). -/
def headerAc (h : Byte) : BitVec 3 := BitVec.ofNat 3 (bfField h 7 5)

/-- `EHA`, bit 4 of the ERP2 header byte (44_erp2.md R182). -/
def headerEha (h : Byte) : BitVec 1 := BitVec.ofNat 1 (bfBit h 4)

/-- `TT`, bits 3 to 0 of the ERP2 header byte (44_erp2.md R182). -/
def headerTt (h : Byte) : BitVec 4 := BitVec.ofNat 4 (bfField h 3 0)

/-- The header byte with these fields, pattern `aaaetttt` (30_encoding.md R89). -/
def headerByte (ac : BitVec 3) (eha : BitVec 1) (tt : BitVec 4) : Byte :=
  BitVec.ofNat 8 (bfCat (bfCat ac.toNat eha.toNat 1) tt.toNat 4)

/-- RORG, FUNC and TYPE put together as a profile code (30_encoding.md R94). -/
def eepOf (rorg func type : Nat) : Eep := BitVec.ofNat 24 (bfCat (bfCat rorg func 8) type 8)

/-- `EEP[23:16]` (30_encoding.md R94). -/
def eepRorg (e : Eep) : Byte := BitVec.ofNat 8 (e.toNat >>> 16)

/-- `EEP[15:8]` (30_encoding.md R94). -/
def eepFunc (e : Eep) : Byte := BitVec.ofNat 8 (e.toNat >>> 8)

/-- `EEP[7:0]` (30_encoding.md R94). -/
def eepType (e : Eep) : Byte := BitVec.ofNat 8 e.toNat

/-- A field of a Teach-In payload: its bit runs extracted with `FIELD` and put together with `CAT` (41_bitfield.md R132, R133). -/
def extract (payload : Bytes) (spec : FieldSpec) : Nat :=
  spec.foldl (fun acc r => bfCat acc (bfField (byteAt payload r.byte) r.hi r.lo) (r.hi - r.lo + 1)) 0

end Sys2Proof.Machine
end

