-- ==== Sys2Proof/Machine/Tables.lean ====
section
/-! DEFINITION. The default value of every parameter of spec/00_scope.md R9, and the constants of R8. -/

namespace Sys2Proof.Machine

/-- The sync marker `SYNC` (00_scope.md R8). -/
def syncMarker : Byte := 0x55

/-- Packet type of an ERP1 frame (00_scope.md R8). -/
def ptypeErp1 : Byte := 0x01

/-- Packet type of an ERP2 frame (00_scope.md R8). -/
def ptypeErp2 : Byte := 0x0A

/-- RORG of the 4BS family (00_scope.md R8). -/
def rorg4bs : Byte := 0xA5

/-- RORG of the 1BS family (00_scope.md R8). -/
def rorg1bs : Byte := 0xD5

/-- RORG of the Universal Teach-In (00_scope.md R8). -/
def rorgUte : Byte := 0xD4

/-- The value at which `FLEN` saturates: the smallest number greater than every `valid_length` (10_state.md R23, D6). -/
def flenMax : Nat := 65798

/-- Rows 0x to 3x of `CRC8_TABLE` (40_crc8.md R121). -/
def crcRows0 : List Byte :=
  [0x00, 0x07, 0x0E, 0x09, 0x1C, 0x1B, 0x12, 0x15, 0x38, 0x3F, 0x36, 0x31, 0x24, 0x23, 0x2A, 0x2D,
   0x70, 0x77, 0x7E, 0x79, 0x6C, 0x6B, 0x62, 0x65, 0x48, 0x4F, 0x46, 0x41, 0x54, 0x53, 0x5A, 0x5D,
   0xE0, 0xE7, 0xEE, 0xE9, 0xFC, 0xFB, 0xF2, 0xF5, 0xD8, 0xDF, 0xD6, 0xD1, 0xC4, 0xC3, 0xCA, 0xCD,
   0x90, 0x97, 0x9E, 0x99, 0x8C, 0x8B, 0x82, 0x85, 0xA8, 0xAF, 0xA6, 0xA1, 0xB4, 0xB3, 0xBA, 0xBD]

/-- Rows 4x to 7x of `CRC8_TABLE` (40_crc8.md R121). -/
def crcRows4 : List Byte :=
  [0xC7, 0xC0, 0xC9, 0xCE, 0xDB, 0xDC, 0xD5, 0xD2, 0xFF, 0xF8, 0xF1, 0xF6, 0xE3, 0xE4, 0xED, 0xEA,
   0xB7, 0xB0, 0xB9, 0xBE, 0xAB, 0xAC, 0xA5, 0xA2, 0x8F, 0x88, 0x81, 0x86, 0x93, 0x94, 0x9D, 0x9A,
   0x27, 0x20, 0x29, 0x2E, 0x3B, 0x3C, 0x35, 0x32, 0x1F, 0x18, 0x11, 0x16, 0x03, 0x04, 0x0D, 0x0A,
   0x57, 0x50, 0x59, 0x5E, 0x4B, 0x4C, 0x45, 0x42, 0x6F, 0x68, 0x61, 0x66, 0x73, 0x74, 0x7D, 0x7A]

/-- Rows 8x to Bx of `CRC8_TABLE` (40_crc8.md R121). -/
def crcRows8 : List Byte :=
  [0x89, 0x8E, 0x87, 0x80, 0x95, 0x92, 0x9B, 0x9C, 0xB1, 0xB6, 0xBF, 0xB8, 0xAD, 0xAA, 0xA3, 0xA4,
   0xF9, 0xFE, 0xF7, 0xF0, 0xE5, 0xE2, 0xEB, 0xEC, 0xC1, 0xC6, 0xCF, 0xC8, 0xDD, 0xDA, 0xD3, 0xD4,
   0x69, 0x6E, 0x67, 0x60, 0x75, 0x72, 0x7B, 0x7C, 0x51, 0x56, 0x5F, 0x58, 0x4D, 0x4A, 0x43, 0x44,
   0x19, 0x1E, 0x17, 0x10, 0x05, 0x02, 0x0B, 0x0C, 0x21, 0x26, 0x2F, 0x28, 0x3D, 0x3A, 0x33, 0x34]

/-- Rows Cx to Fx of `CRC8_TABLE` (40_crc8.md R121). -/
def crcRowsC : List Byte :=
  [0x4E, 0x49, 0x40, 0x47, 0x52, 0x55, 0x5C, 0x5B, 0x76, 0x71, 0x78, 0x7F, 0x6A, 0x6D, 0x64, 0x63,
   0x3E, 0x39, 0x30, 0x37, 0x22, 0x25, 0x2C, 0x2B, 0x06, 0x01, 0x08, 0x0F, 0x1A, 0x1D, 0x14, 0x13,
   0xAE, 0xA9, 0xA0, 0xA7, 0xB2, 0xB5, 0xBC, 0xBB, 0x96, 0x91, 0x98, 0x9F, 0x8A, 0x8D, 0x84, 0x83,
   0xDE, 0xD9, 0xD0, 0xD7, 0xC2, 0xC5, 0xCC, 0xCB, 0xE6, 0xE1, 0xE8, 0xEF, 0xFA, 0xFD, 0xF4, 0xF3]

/-- The default `CRC8_TABLE`: polynomial 0x07, most significant bit first (40_crc8.md R121). -/
def crc8TableDefault : List Byte := crcRows0 ++ (crcRows4 ++ (crcRows8 ++ crcRowsC))

/-- The default `AC_TABLE` (30_encoding.md R92). -/
def acTableDefault : List (Option AcRow) :=
  [some ⟨.w3, false⟩, some ⟨.w4, false⟩, some ⟨.w4, true⟩, some ⟨.w6, false⟩, none, none, none, none]

/-- The default `TT_TABLE` (30_encoding.md R93). -/
def ttTableDefault : List (Option Byte) :=
  [some 0xF6, some 0xD5, some 0xA5, some 0xD0, some 0xD2, some 0xD4, some 0xD1, some 0x30,
   some 0x31, some 0x35, some 0xB3, none, none, none, none, none]

/-- The default 4BS Teach-In layout; DB3 is byte 0 (30_encoding.md R98). -/
def layout4bsDefault : Layout4bs where
  func := [⟨0, 7, 2⟩]
  type := [⟨0, 1, 0⟩, ⟨1, 7, 3⟩]
  manuf := [⟨1, 2, 0⟩, ⟨2, 7, 0⟩]
  lrnType := [⟨3, 7, 7⟩]

/-- The default Universal Teach-In layout; DB6 is byte 0 (30_encoding.md R100). -/
def layoutUteDefault : LayoutUte where
  dir := [⟨0, 7, 7⟩]
  noresp := [⟨0, 6, 6⟩]
  result := [⟨0, 5, 4⟩]
  cmd := [⟨0, 3, 0⟩]
  channels := [⟨1, 7, 0⟩]
  manuf := [⟨3, 2, 0⟩, ⟨2, 7, 0⟩]
  type := [⟨4, 7, 0⟩]
  func := [⟨5, 7, 0⟩]
  rorg := [⟨6, 7, 0⟩]

/-- The profile code D5-00-01 (30_encoding.md R95). -/
def codeD50001 : Eep := 0xD50001

/-- The profile code A5-02-05 (30_encoding.md R95). -/
def codeA50205 : Eep := 0xA50205

/-- The default `PROFILE_TABLE`: the two rows the source defines (46_eep_dispatch.md R221). -/
def profileTableDefault : List ProfileRow :=
  [⟨codeD50001, 1, .contactSwitch⟩, ⟨codeA50205, 4, .temperature⟩]

/-- The default `OPT_TABLE` (30_encoding.md R101). -/
def optTableDefault : List (Byte × Nat) :=
  [(0x01, 5), (0x03, 5), (0x07, 8), (0x09, 8), (0x0A, 1)]

/-- Every parameter at its default (00_scope.md R9). -/
def configDefault : Config where
  crc8Table := crc8TableDefault
  lenOrder := .big
  bufCap := 65797
  overrunPolicy := .discard
  acTable := acTableDefault
  ttTable := ttTableDefault
  teachin4bs := .layout layout4bsDefault
  teachinUte := .layout layoutUteDefault
  profileTable := profileTableDefault
  valueDigits := 1
  optTable := optTableDefault

end Sys2Proof.Machine
end

