-- ==== Sys2Proof/Syntax.lean ====
section
/-! DEFINITION. The operations of TRB as an abstract syntax: one constructor for each row of spec/opcode_table.json. -/

namespace Sys2Proof

/-- The profile identifier that the dispatch takes: a code, or a text at the dispatch's software contract (46_eep_dispatch.md R220,
30_encoding.md R105, R107). -/
inductive EepArg where
  | code (e : Option Eep)
  | text (s : Text)
  deriving DecidableEq, Repr

/-- An operation of TRB. A row that wire bits select has the row's free bits as operands; a row of the format `FUNC` that is a function
of literal operands (10_state.md R39) has these operands; every other row acts on the state. -/
inductive Instr where
  /-- `CRC8.COMPUTE` (40_crc8.md R122). -/
  | crc8Compute (bytes : Bytes)
  /-- `CRC8.VERIFY` (40_crc8.md R123). -/
  | crc8Verify (candidate : Byte) (bytes : Bytes)
  /-- `BF.BIT` (41_bitfield.md R131). -/
  | bfBit (b : Byte) (idx : Fin 8)
  /-- `BF.FIELD` (41_bitfield.md R132). -/
  | bfField (b : Byte) (hi lo : Fin 8)
  /-- `BF.CAT`: the fields `a` of width `wa` and `b` of width `wb` (41_bitfield.md R133). -/
  | bfCat (a wa b wb : Nat)
  /-- `BF.U16` (41_bitfield.md R134). -/
  | bfU16 (bytes : Bytes) (offset : Nat)
  /-- `BF.SLICE` (41_bitfield.md R135). -/
  | bfSlice (bytes : Bytes) (start stop : Nat)
  /-- `BF.IDNORM` (41_bitfield.md R136). -/
  | bfIdnorm (id : Bytes)
  /-- `RSM.STEP` (42_reassembler.md R141). -/
  | rsmStep
  /-- `RSM.NOP` (42_reassembler.md R147). -/
  | rsmNop
  /-- `RSM.START` (42_reassembler.md R142). -/
  | rsmStart
  /-- `RSM.DROP`, its key the chunk's first byte (42_reassembler.md R144). -/
  | rsmDrop (first : Byte)
  /-- `RSM.APPEND` (42_reassembler.md R143). -/
  | rsmAppend
  /-- `RSM.WAIT` (42_reassembler.md R148). -/
  | rsmWait
  /-- `RSM.EMIT` (42_reassembler.md R145). -/
  | rsmEmit
  /-- `RSM.OVERRUN` (42_reassembler.md R146). -/
  | rsmOverrun
  /-- `ESP3.DECODE` (43_esp3_frame.md R160). -/
  | esp3Decode
  /-- `ESP3.HDR` (43_esp3_frame.md R161). -/
  | esp3Hdr
  /-- `ESP3.CRC8H` (43_esp3_frame.md R162). -/
  | esp3Crc8h
  /-- `ESP3.ERP1` (43_esp3_frame.md R163). -/
  | esp3Erp1
  /-- `ESP3.ERP2` (43_esp3_frame.md R163). -/
  | esp3Erp2
  /-- `ESP3.OTHER`, its key the packet type (43_esp3_frame.md R164). -/
  | esp3Other (ptype : Byte)
  /-- `ESP3.OPT` (43_esp3_frame.md R166). -/
  | esp3Opt
  /-- `ESP3.CRC8D` (43_esp3_frame.md R169). -/
  | esp3Crc8d
  /-- `ESP3.MERGE` (43_esp3_frame.md R170). -/
  | esp3Merge
  /-- `ERP2.DECODE` (44_erp2.md R180). -/
  | erp2Decode
  /-- `ERP2.SUBCRC` (44_erp2.md R181). -/
  | erp2Subcrc
  /-- `ERP2.HDRBYTE` (44_erp2.md R182). -/
  | erp2Hdrbyte
  /-- `ERP2.AC0` (44_erp2.md R184). -/
  | erp2Ac0 (eha : BitVec 1) (tt : BitVec 4)
  /-- `ERP2.AC1` (44_erp2.md R184). -/
  | erp2Ac1 (eha : BitVec 1) (tt : BitVec 4)
  /-- `ERP2.AC2` (44_erp2.md R184). -/
  | erp2Ac2 (eha : BitVec 1) (tt : BitVec 4)
  /-- `ERP2.AC3` (44_erp2.md R184). -/
  | erp2Ac3 (eha : BitVec 1) (tt : BitVec 4)
  /-- `ERP2.ACRSV`, `ac` the two low bits of Address Control (44_erp2.md R195). -/
  | erp2Acrsv (ac : BitVec 2) (eha : BitVec 1) (tt : BitVec 4)
  /-- `ERP2.EHA` (44_erp2.md R194). -/
  | erp2Eha (ac : BitVec 3) (tt : BitVec 4)
  /-- `ERP2.TT0`, RPS (44_erp2.md R183). -/
  | erp2Tt0 (ac : BitVec 3) (eha : BitVec 1)
  /-- `ERP2.TT1`, 1BS (44_erp2.md R183). -/
  | erp2Tt1 (ac : BitVec 3) (eha : BitVec 1)
  /-- `ERP2.TT2`, 4BS (44_erp2.md R183). -/
  | erp2Tt2 (ac : BitVec 3) (eha : BitVec 1)
  /-- `ERP2.TT3`, Smart Ack signal (44_erp2.md R183). -/
  | erp2Tt3 (ac : BitVec 3) (eha : BitVec 1)
  /-- `ERP2.TT4`, VLD (44_erp2.md R183). -/
  | erp2Tt4 (ac : BitVec 3) (eha : BitVec 1)
  /-- `ERP2.TT5`, UTE (44_erp2.md R183). -/
  | erp2Tt5 (ac : BitVec 3) (eha : BitVec 1)
  /-- `ERP2.TT6`, MSC (44_erp2.md R183). -/
  | erp2Tt6 (ac : BitVec 3) (eha : BitVec 1)
  /-- `ERP2.TT7`, SEC (44_erp2.md R183). -/
  | erp2Tt7 (ac : BitVec 3) (eha : BitVec 1)
  /-- `ERP2.TT8`, SEC_ENCAPS (44_erp2.md R183). -/
  | erp2Tt8 (ac : BitVec 3) (eha : BitVec 1)
  /-- `ERP2.TT9`, SEC_TI (44_erp2.md R183). -/
  | erp2Tt9 (ac : BitVec 3) (eha : BitVec 1)
  /-- `ERP2.TT10`, GP_SD (44_erp2.md R183). -/
  | erp2Tt10 (ac : BitVec 3) (eha : BitVec 1)
  /-- `ERP2.TTRSV`, the row of Telegram Type 11 (44_erp2.md R183). -/
  | erp2Ttrsv11 (ac : BitVec 3) (eha : BitVec 1)
  /-- `ERP2.TTRSV`, the row of Telegram Type 12 (44_erp2.md R183). -/
  | erp2Ttrsv12 (ac : BitVec 3) (eha : BitVec 1)
  /-- `ERP2.TTRSV`, the row of Telegram Type 13 (44_erp2.md R183). -/
  | erp2Ttrsv13 (ac : BitVec 3) (eha : BitVec 1)
  /-- `ERP2.TTRSV`, the row of Telegram Type 14 (44_erp2.md R183). -/
  | erp2Ttrsv14 (ac : BitVec 3) (eha : BitVec 1)
  /-- `ERP2.TTEXT` (44_erp2.md R183). -/
  | erp2Ttext (ac : BitVec 3) (eha : BitVec 1)
  /-- `ERP2.SHORT` (44_erp2.md R195). -/
  | erp2Short
  /-- `ERP1.DECODE` (45_erp1.md R200). -/
  | erp1Decode
  /-- `ERP1.SHORT` (45_erp1.md R201). -/
  | erp1Short
  /-- `ERP1.FIELDS` (45_erp1.md R202 to R205). -/
  | erp1Fields
  /-- `ERP1.TI4BS` (45_erp1.md R207). -/
  | erp1Ti4bs
  /-- `ERP1.TIUTE` (45_erp1.md R207). -/
  | erp1Tiute
  /-- `ERP1.TI1BS` (45_erp1.md R207). -/
  | erp1Ti1bs
  /-- `ERP1.TINONE`, its key the RORG byte (45_erp1.md R207). -/
  | erp1Tinone (rorg : Byte)
  /-- `EEP.DECODE` (46_eep_dispatch.md R223). -/
  | eepDecode (e : EepArg) (payload : Bytes)
  /-- `EEP.ISKNOWN` (46_eep_dispatch.md R224). -/
  | eepIsknown (e : EepArg)
  /-- `EEP.D5-00-01` (47_profiles.md R241). -/
  | eepD50001
  /-- `EEP.A5-02-05` (47_profiles.md R244). -/
  | eepA50205
  /-- `EEP.UNKNOWN`, its key the profile code, `none` for the absent one (46_eep_dispatch.md R225); for a key of a larger
  `PROFILE_TABLE`, the row of its entry (30_encoding.md R95). -/
  | eepUnknown (code : Option Eep)
  deriving DecidableEq, Repr

/-- The state of the Reassembler: `Idle`, "no partial frame", or `Accumulating`, "partial frame buffered" (10_state.md R21). -/
inductive RsmState where
  | idle
  | accumulating
  deriving DecidableEq, Repr

/-- The formats of spec/opcode_table.json, each naming the key that selects a row (30_encoding.md R80). -/
inductive Format where
  | func
  | chunk
  | chunkLen
  | esp3
  | erp1
  | erp1Len
  | erp2Ac
  | erp2Eha
  | erp2Tt
  | erp2Len
  | eep
  deriving DecidableEq, Repr

/-- A key: the value that selects a row of one format (30_encoding.md R80, R83, R84, R87, R89, R95). -/
inductive Key where
  /-- The Reassembler's state and the chunk's first byte, `none` for an empty chunk. -/
  | chunk (st : RsmState) (first : Option Byte)
  /-- The accumulated length and the declared length of the frame. -/
  | chunkLen (flen vlen : Nat)
  /-- The packet type. -/
  | esp3 (ptype : Byte)
  /-- The RORG byte of an ERP1 data region. -/
  | erp1 (rorg : Byte)
  /-- The length of an ERP1 data region. -/
  | erp1Len (n : Nat)
  /-- The ERP2 header byte, read for Address Control. -/
  | erp2Ac (header : Byte)
  /-- The ERP2 header byte, read for the extended-header flag. -/
  | erp2Eha (header : Byte)
  /-- The ERP2 header byte, read for the Telegram Type. -/
  | erp2Tt (header : Byte)
  /-- The length of an ERP2 data region and the length its addressing needs. -/
  | erp2Len (n need : Nat)
  /-- The profile code, `none` for the absent one. -/
  | eep (code : Option Eep)
  deriving DecidableEq, Repr

end Sys2Proof
end

