-- ==== Sys2Proof/WellFormed.lean ====
section
/-! DEFINITION. Well-formed operations: the operand conditions that the rules state, and for a format's default row the condition that no
more specific row of the format matches (spec/30_encoding.md R80). -/

namespace Sys2Proof

open Sys2Proof.Machine

/-- The operand conditions of an operation. Where the table's row or the rule states none, every operand is well formed. -/
def Instr.wf : Instr → Bool
  | .bfField _ hi lo => decide (lo ≤ hi)
  | .bfCat a wa b wb => decide (a < 2 ^ wa) && decide (b < 2 ^ wb)
  | .bfU16 bytes offset => decide (offset + 2 ≤ bytes.length)
  | .bfSlice bytes start stop => decide (start ≤ stop) && decide (stop ≤ bytes.length)
  | .bfIdnorm id => decide (id.length = 3) || decide (id.length = 4) || decide (id.length = 6)
  | .rsmDrop first => decide (first ≠ syncMarker)
  | .esp3Other ptype => decide (ptype ≠ ptypeErp1) && decide (ptype ≠ ptypeErp2)
  | .erp1Tinone rorg => decide (rorg ≠ rorg4bs) && decide (rorg ≠ rorgUte) && decide (rorg ≠ rorg1bs)
  | .eepUnknown code => decide (code ≠ some codeD50001) && decide (code ≠ some codeA50205)
  | _ => true

end Sys2Proof
end

