-- ==== Sys2Proof/Decode.lean ====
section
/-! DEFINITION. Which operation a key selects (spec/30_encoding.md R80, spec/opcode_table.json), the decoder of a format's wire bytes,
and after it the encoder. -/

namespace Sys2Proof

open Sys2Proof.Machine

/-- Why bytes are no key of a format. -/
inductive DecodeReject where
  /-- The format has no wire key: its operations are invoked by others, or selected by a comparison (30_encoding.md R80). -/
  | noWireKey (f : Format)
  /-- The format's key has another number of bytes. -/
  | keyLength (f : Format) (n : Nat)
  /-- No row of the format matches: "the decode simply goes on" (30_encoding.md R80). -/
  | noRow (f : Format)
  deriving DecidableEq, Repr

/-- The `CHUNK` row (30_encoding.md R84). -/
def decodeChunk (st : RsmState) (first : Option Byte) : Instr :=
  match first with
  | none => .rsmNop
  | some b =>
    match st with
    | .idle => if b = syncMarker then .rsmStart else .rsmDrop b
    | .accumulating => .rsmAppend

/-- The `CHUNK_LEN` row (30_encoding.md R84). -/
def decodeChunkLen (flen vlen : Nat) : Instr :=
  if flen ≤ 6 then .rsmWait
  else if flen < vlen then .rsmWait
  else if flen = vlen then .rsmEmit
  else .rsmOverrun

/-- The `ESP3` row (30_encoding.md R83). -/
def decodeEsp3 (ptype : Byte) : Instr :=
  if ptype = ptypeErp1 then .esp3Erp1 else if ptype = ptypeErp2 then .esp3Erp2 else .esp3Other ptype

/-- The `ERP1` row (30_encoding.md R87). -/
def decodeErp1 (rorg : Byte) : Instr :=
  if rorg = rorg4bs then .erp1Ti4bs
  else if rorg = rorgUte then .erp1Tiute
  else if rorg = rorg1bs then .erp1Ti1bs
  else .erp1Tinone rorg

/-- The `ERP2_AC` row (30_encoding.md R92). -/
def decodeErp2Ac (h : Byte) : Instr :=
  match (headerAc h).toNat with
  | 0 => .erp2Ac0 (headerEha h) (headerTt h)
  | 1 => .erp2Ac1 (headerEha h) (headerTt h)
  | 2 => .erp2Ac2 (headerEha h) (headerTt h)
  | 3 => .erp2Ac3 (headerEha h) (headerTt h)
  | _ => .erp2Acrsv (BitVec.ofNat 2 (bfField h 6 5)) (headerEha h) (headerTt h)

/-- The `ERP2_EHA` row, if it matches (30_encoding.md R89, 44_erp2.md R194). -/
def decodeErp2Eha (h : Byte) : Option Instr :=
  if headerEha h = 1 then some (.erp2Eha (headerAc h) (headerTt h)) else none

/-- The `ERP2_TT` row (30_encoding.md R93). -/
def decodeErp2Tt (h : Byte) : Instr :=
  match (headerTt h).toNat with
  | 0 => .erp2Tt0 (headerAc h) (headerEha h)
  | 1 => .erp2Tt1 (headerAc h) (headerEha h)
  | 2 => .erp2Tt2 (headerAc h) (headerEha h)
  | 3 => .erp2Tt3 (headerAc h) (headerEha h)
  | 4 => .erp2Tt4 (headerAc h) (headerEha h)
  | 5 => .erp2Tt5 (headerAc h) (headerEha h)
  | 6 => .erp2Tt6 (headerAc h) (headerEha h)
  | 7 => .erp2Tt7 (headerAc h) (headerEha h)
  | 8 => .erp2Tt8 (headerAc h) (headerEha h)
  | 9 => .erp2Tt9 (headerAc h) (headerEha h)
  | 10 => .erp2Tt10 (headerAc h) (headerEha h)
  | 11 => .erp2Ttrsv11 (headerAc h) (headerEha h)
  | 12 => .erp2Ttrsv12 (headerAc h) (headerEha h)
  | 13 => .erp2Ttrsv13 (headerAc h) (headerEha h)
  | 14 => .erp2Ttrsv14 (headerAc h) (headerEha h)
  | _ => .erp2Ttext (headerAc h) (headerEha h)

/-- The `EEP` row of the table of rows (30_encoding.md R95). A row that a larger `PROFILE_TABLE` adds for an entry has the same key and
operand as the default row, and the parameters in State say which of the two runs (assumption 26). -/
def decodeEep (code : Option Eep) : Instr :=
  if code = some codeD50001 then .eepD50001
  else if code = some codeA50205 then .eepA50205
  else .eepUnknown code

/-- The operation that a key selects; `none` where a format that holds only its degrade row does not match (30_encoding.md R80). -/
def decodeKey : Key → Option Instr
  | .chunk st first => some (decodeChunk st first)
  | .chunkLen flen vlen => some (decodeChunkLen flen vlen)
  | .esp3 ptype => some (decodeEsp3 ptype)
  | .erp1 rorg => some (decodeErp1 rorg)
  | .erp1Len n => if n < 7 then some .erp1Short else none
  | .erp2Ac h => some (decodeErp2Ac h)
  | .erp2Eha h => decodeErp2Eha h
  | .erp2Tt h => some (decodeErp2Tt h)
  | .erp2Len n need => if n = 0 ∨ n < need then some .erp2Short else none
  | .eep code => some (decodeEep code)

/-- The key that the wire bytes of a format are; the bytes of the format `CHUNK` are a chunk taken in `Idle`, which is what its rows
with wire bits say. -/
def wireKey (f : Format) (bytes : Bytes) : Except DecodeReject Key :=
  match f, bytes with
  | .chunk, [] => .ok (.chunk .idle none)
  | .chunk, b :: _ => .ok (.chunk .idle (some b))
  | .esp3, [b] => .ok (.esp3 b)
  | .erp1, [b] => .ok (.erp1 b)
  | .erp2Ac, [b] => .ok (.erp2Ac b)
  | .erp2Eha, [b] => .ok (.erp2Eha b)
  | .erp2Tt, [b] => .ok (.erp2Tt b)
  | .eep, [] => .ok (.eep none)
  | .eep, [r, f, t] => .ok (.eep (some (eepOf r.toNat f.toNat t.toNat)))
  | .func, _ => .error (.noWireKey .func)
  | .chunkLen, _ => .error (.noWireKey .chunkLen)
  | .erp1Len, _ => .error (.noWireKey .erp1Len)
  | .erp2Len, _ => .error (.noWireKey .erp2Len)
  | f, bytes => .error (.keyLength f bytes.length)

/-- The decoder: the operation that the wire bytes of a format select, or the reason why they select none. -/
def decode (f : Format) (bytes : Bytes) : Except DecodeReject Instr :=
  match wireKey f bytes with
  | .error r => .error r
  | .ok k =>
    match decodeKey k with
    | some i => .ok i
    | none => .error (.noRow f)

/-- The format of an operation's row in spec/opcode_table.json. -/
def Instr.format : Instr → Format
  | .rsmNop => .chunk
  | .rsmStart => .chunk
  | .rsmDrop _ => .chunk
  | .rsmAppend => .chunk
  | .rsmWait => .chunkLen
  | .rsmEmit => .chunkLen
  | .rsmOverrun => .chunkLen
  | .esp3Erp1 => .esp3
  | .esp3Erp2 => .esp3
  | .esp3Other _ => .esp3
  | .erp2Ac0 _ _ => .erp2Ac
  | .erp2Ac1 _ _ => .erp2Ac
  | .erp2Ac2 _ _ => .erp2Ac
  | .erp2Ac3 _ _ => .erp2Ac
  | .erp2Acrsv _ _ _ => .erp2Ac
  | .erp2Eha _ _ => .erp2Eha
  | .erp2Tt0 _ _ => .erp2Tt
  | .erp2Tt1 _ _ => .erp2Tt
  | .erp2Tt2 _ _ => .erp2Tt
  | .erp2Tt3 _ _ => .erp2Tt
  | .erp2Tt4 _ _ => .erp2Tt
  | .erp2Tt5 _ _ => .erp2Tt
  | .erp2Tt6 _ _ => .erp2Tt
  | .erp2Tt7 _ _ => .erp2Tt
  | .erp2Tt8 _ _ => .erp2Tt
  | .erp2Tt9 _ _ => .erp2Tt
  | .erp2Tt10 _ _ => .erp2Tt
  | .erp2Ttrsv11 _ _ => .erp2Tt
  | .erp2Ttrsv12 _ _ => .erp2Tt
  | .erp2Ttrsv13 _ _ => .erp2Tt
  | .erp2Ttrsv14 _ _ => .erp2Tt
  | .erp2Ttext _ _ => .erp2Tt
  | .erp2Short => .erp2Len
  | .erp1Short => .erp1Len
  | .erp1Ti4bs => .erp1
  | .erp1Tiute => .erp1
  | .erp1Ti1bs => .erp1
  | .erp1Tinone _ => .erp1
  | .eepD50001 => .eep
  | .eepA50205 => .eep
  | .eepUnknown _ => .eep
  | _ => .func

/-- The three bytes of a profile code, RORG first (30_encoding.md R94). -/
def eepBytes (e : Eep) : Bytes := [eepRorg e, eepFunc e, eepType e]

/-- The encoder: the wire bytes of a well-formed operation, from the encodings of spec/opcode_table.json; `none` for the rows without an
encoding, whose `encoding` string is empty and which no chunk of bytes taken in `Idle` selects. -/
def encode : Instr → Option Bytes
  | .rsmNop => some []
  | .rsmStart => some [0x55]
  | .rsmDrop first => some [first]
  | .esp3Erp1 => some [0x01]
  | .esp3Erp2 => some [0x0A]
  | .esp3Other ptype => some [ptype]
  | .erp2Ac0 eha tt => some [headerByte 0 eha tt]
  | .erp2Ac1 eha tt => some [headerByte 1 eha tt]
  | .erp2Ac2 eha tt => some [headerByte 2 eha tt]
  | .erp2Ac3 eha tt => some [headerByte 3 eha tt]
  | .erp2Acrsv ac eha tt => some [headerByte (BitVec.ofNat 3 (bfCat 1 ac.toNat 2)) eha tt]
  | .erp2Eha ac tt => some [headerByte ac 1 tt]
  | .erp2Tt0 ac eha => some [headerByte ac eha 0]
  | .erp2Tt1 ac eha => some [headerByte ac eha 1]
  | .erp2Tt2 ac eha => some [headerByte ac eha 2]
  | .erp2Tt3 ac eha => some [headerByte ac eha 3]
  | .erp2Tt4 ac eha => some [headerByte ac eha 4]
  | .erp2Tt5 ac eha => some [headerByte ac eha 5]
  | .erp2Tt6 ac eha => some [headerByte ac eha 6]
  | .erp2Tt7 ac eha => some [headerByte ac eha 7]
  | .erp2Tt8 ac eha => some [headerByte ac eha 8]
  | .erp2Tt9 ac eha => some [headerByte ac eha 9]
  | .erp2Tt10 ac eha => some [headerByte ac eha 10]
  | .erp2Ttrsv11 ac eha => some [headerByte ac eha 11]
  | .erp2Ttrsv12 ac eha => some [headerByte ac eha 12]
  | .erp2Ttrsv13 ac eha => some [headerByte ac eha 13]
  | .erp2Ttrsv14 ac eha => some [headerByte ac eha 14]
  | .erp2Ttext ac eha => some [headerByte ac eha 15]
  | .erp1Ti4bs => some [0xA5]
  | .erp1Tiute => some [0xD4]
  | .erp1Ti1bs => some [0xD5]
  | .erp1Tinone rorg => some [rorg]
  | .eepD50001 => some [0xD5, 0x00, 0x01]
  | .eepA50205 => some [0xA5, 0x02, 0x05]
  | .eepUnknown none => some []
  | .eepUnknown (some e) => some (eepBytes e)
  | _ => none

/-- The format in which a word of the table is read when no format is given (assumption 16). The six formats with an 8-bit key give most
bytes a row each; this choice takes a byte that one row fixes whole to that row's format, a byte whose only set bits are the ones that
an `ERP2_EHA`, `ERP2_AC` or `ERP2_TT` row fixes to that format, and every other byte to `CHUNK`, the first key read after reset. -/
def tableFormat (nbits w : Nat) : Option Format :=
  if nbits = 24 then some .eep
  else if nbits = 8 then
    if w = 0x55 then some .chunk
    else if w = 0x01 ∨ w = 0x0A then some .esp3
    else if w = 0xA5 ∨ w = 0xD4 ∨ w = 0xD5 then some .erp1
    else if w = 0x10 then some .erp2Eha
    else if w ≠ 0 ∧ w % 32 = 0 then some .erp2Ac
    else if w ≠ 0 ∧ w < 16 then some .erp2Tt
    else some .chunk
  else none

/-- The wire bytes of a word of the table: one byte, or the three bytes of a profile code, RORG first. -/
def tableBytes (nbits w : Nat) : Bytes :=
  if nbits = 24 then eepBytes (BitVec.ofNat 24 w) else [BitVec.ofNat 8 w]

/-- The operation that the decoder reads from a word of the table (spec/opcode_table.json). -/
def decodeTableWord (nbits w : Nat) : Option Instr :=
  match tableFormat nbits w with
  | none => none
  | some f => (decode f (tableBytes nbits w)).toOption

end Sys2Proof
end

