-- ==== Sys2Proof/Machine/State.lean ====
section
/-! DEFINITION. The state of TRB and of what the spec places at its ports (spec/10_state.md), the reasons a step can stop, and the state
after reset. Everything is plain data. -/

namespace Sys2Proof.Machine

/-- The frame space: the bytes of `FBUF` by offset from the sync byte, offsets strictly rising; an offset that is not listed holds no
value (10_state.md R22, R32; assumption 2). -/
abbrev Mem := List Host.Cell

/-- A slice of `FRAME`: offset and length (10_state.md R25). -/
structure Slice where
  off : Nat
  len : Nat
  deriving DecidableEq, Repr

/-- The radio decoder selected for a frame, register `KIND` (10_state.md R25). -/
inductive Kind where
  | erp1
  | erp2
  | other
  deriving DecidableEq, Repr

/-- The reason codes of the decode-tier faults that a frame records (60_exceptions.md R261). -/
inductive Reason where
  | hdrCrc
  | dataCrc
  | subCrc
  | ptypeUnknown
  | erp1Short
  | erp2Short
  | erp2AcReserved
  | erp2Eha
  | eepAbsent
  | eepUnregistered
  | eepLength
  deriving DecidableEq, Repr

/-- A record of the device registry (10_state.md R33). -/
structure RegDevice where
  id : Id48
  eep : Eep
  name : Option Text
  manufacturer : Option Text
  learned : Bool
  deriving DecidableEq, Repr

/-- The manufacturer of a `DEV` record: the registry's text, or the 11-bit id of a Teach-In payload (44_erp2.md R189). -/
inductive Maker where
  | text (t : Text)
  | id (n : BitVec 11)
  deriving DecidableEq, Repr

/-- The record in register `DEV`: the registry's record or a transient one (44_erp2.md R189). -/
structure Device where
  id : Id48
  eep : Option Eep
  name : Option Text
  manufacturer : Option Maker
  learned : Bool
  deriving DecidableEq, Repr

/-- A teach-in record, register `TI` (30_encoding.md R98 to R100). -/
structure TeachIn where
  eep : Option Eep
  manuf : Option (BitVec 11)
  ute : Option Ute
  deriving DecidableEq, Repr

/-- A Report (46_eep_dispatch.md R229). -/
structure Report where
  value : List (FieldName × Val)
  desc : Option Desc
  learn : Bool
  raw : Bytes
  deriving DecidableEq, Repr

/-- The per-frame field registers (10_state.md R25) and result flags (R29); with all of them the record on `TEL_OUT` (R40). -/
structure Telegram where
  frame : Bytes
  dlen : BitVec 16
  olen : Byte
  ptype : Byte
  crc8h : Byte
  crc8d : Byte
  data : Slice
  opt : Slice
  kind : Kind
  isOpaque : Bool
  ac : Option (BitVec 3)
  eha : Option (BitVec 1)
  tt : Option (BitVec 4)
  rorg : Option Byte
  oidw : Option IdWidth
  oid : Option Id48
  did : Option (BitVec 32)
  status : Option Byte
  rpt : Option (BitVec 4)
  dl : Option Slice
  dev : Option Device
  ti : Option TeachIn
  eep : Option Eep
  manuf : Option (BitVec 11)
  report : Report
  dbm : Option Int
  reason : List Reason
  crc8hOk : Bool
  crc8dOk : Bool
  crcsubOk : Option Bool
  crc : Bool
  learn : Bool
  known : Bool
  deriving DecidableEq, Repr

/-- The field registers when no frame is being decoded: every option `none`, everything else at a value that stands for "not written"
(10_state.md R25, R42; assumption 4). -/
def blankTelegram : Telegram where
  frame := []
  dlen := 0
  olen := 0
  ptype := 0
  crc8h := 0
  crc8d := 0
  data := ⟨0, 0⟩
  opt := ⟨0, 0⟩
  kind := .other
  isOpaque := false
  ac := none
  eha := none
  tt := none
  rorg := none
  oidw := none
  oid := none
  did := none
  status := none
  rpt := none
  dl := none
  dev := none
  ti := none
  eep := none
  manuf := none
  report := ⟨[], none, false, []⟩
  dbm := none
  reason := []
  crc8hOk := false
  crc8dOk := false
  crcsubOk := none
  crc := false
  learn := false
  known := false

/-- The event tags on `TEL_OUT` (60_exceptions.md R264, R270). -/
inductive TelTag where
  | learn
  | known
  | unknown
  | data
  deriving DecidableEq, Repr

/-- One transaction on `TEL_OUT`: a tag and a record (10_state.md R35). -/
structure TelEvent where
  tag : TelTag
  record : Telegram
  deriving DecidableEq, Repr

/-- One pulse on `DIAG_OUT` (10_state.md R38). -/
inductive DiagEvent where
  | drop (n : Nat)
  | overrun (flen vlen : Nat)
  deriving DecidableEq, Repr

/-- The answer of a pure-function port (10_state.md R39). -/
inductive FnResult where
  | byte (b : Byte)
  | bool (b : Bool)
  | num (n : Nat)
  | bytes (bs : Bytes)
  | id (i : Id48)
  /-- A Report, and beside it the reason that the dispatch degraded for, if it did: the model's choice (assumption 36). -/
  | report (r : Report) (reason : Option Reason)
  deriving DecidableEq, Repr

/-- A call of the device teach interface (60_exceptions.md R280). -/
structure TeachReq where
  id : Text
  eep : Text
  name : Option Text
  manufacturer : Option Text
  deriving DecidableEq, Repr

/-- One thing that arrives at TRB or at the host interfaces around it; State's input holds them in the order in which they take effect
(20_memory.md R59). -/
inductive Input where
  /-- A transaction on `CHUNK_IN` (10_state.md R34). -/
  | chunk (bytes : Bytes)
  /-- A call of a pure-function port (10_state.md R39). -/
  | port (i : Instr)
  /-- A call of the teach interface (60_exceptions.md R280). -/
  | teach (req : TeachReq)
  /-- A name update, the only mutation of a record besides teach (60_exceptions.md R280). -/
  | rename (id : Text) (name : Option Text)
  /-- A get-by-id of the registry query interface (60_exceptions.md R281). -/
  | get (id : Text)
  /-- A get-all of the registry query interface (60_exceptions.md R281). -/
  | getAll
  /-- A reset, which "may be applied at any time" (10_state.md R42). -/
  | reset
  deriving DecidableEq, Repr

/-- The validation-tier errors of the host interfaces (60_exceptions.md R260, R280). -/
inductive ValidationError where
  | id
  | eep
  | name
  | manufacturer
  | unknownId
  deriving DecidableEq, Repr

/-- The answer of a host interface to its caller (60_exceptions.md R280, R281). -/
inductive HostReply where
  | stored (d : RegDevice)
  | found (d : Option RegDevice)
  | all (ds : List RegDevice)
  | invalid (e : ValidationError)
  deriving DecidableEq, Repr

/-- Why a step stops the machine. TRB has no fault of its own that stops it (60_exceptions.md R263); this one is the model's answer to a
read of the buffer where it holds no byte. The pipeline of `RSM.STEP` does not raise it from a state that keeps the model's invariant
(assumption 2). -/
inductive Fault where
  /-- Raised by `RSM.STEP`, `RSM.EMIT` and `RSM.OVERRUN` at a read of the frame space at an offset that holds no byte of the frame-so-far
  (00_scope.md R12: "Requires `addr + n <= FLEN`"). Safe. -/
  | frameSpace (addr : Nat)
  deriving DecidableEq, Repr

/-- Why the model gives an operation no meaning. -/
inductive Refusal where
  /-- Raised by exec for an operation that is not modelled; none is left. Safe. -/
  | notModelled (mnemonic : String)
  /-- Raised by `EEP.DECODE` on a text with a character other than a hex digit, space, hyphen or colon: "a model must give no meaning to
  the result" (30_encoding.md R105, 93_implementation_defined.md U6). Safe. -/
  | eepText
  /-- Raised by a step when the host offers at a pure-function port an operation that has none (10_state.md R39; assumption 34). Safe. -/
  | notAPort
  deriving DecidableEq, Repr

/-- The whole state: TRB's persistent state and parameters, the per-frame registers, the registry that the host keeps for it, and what
stands at its ports. -/
structure State where
  /-- The parameters, "fixed before reset and constant afterwards" (10_state.md R30, R31). -/
  cfg : Config
  /-- `RSM_STATE` (10_state.md R21). -/
  rsm : RsmState
  /-- `FBUF` (10_state.md R22). -/
  mem : Mem
  /-- `FLEN` (10_state.md R23). -/
  flen : Nat
  /-- The field registers and flags (10_state.md R25, R29). -/
  fields : Telegram
  /-- `REG`, ids strictly rising (10_state.md R33). -/
  reg : List RegDevice
  /-- The ids presented on `REG_Q`, oldest first (10_state.md R36). -/
  regQ : List Id48
  /-- What has been delivered and not yet taken, in order (10_state.md R34, R39; 60_exceptions.md R280). -/
  input : List Input
  /-- The transactions presented on `TEL_OUT`, oldest first (10_state.md R35). -/
  telOut : List TelEvent
  /-- The pulses presented on `DIAG_OUT`, oldest first (10_state.md R38). -/
  diagOut : List DiagEvent
  /-- The last answer of a pure-function port (10_state.md R39). -/
  fnOut : Option FnResult
  /-- The answers of the host interfaces, oldest first (60_exceptions.md R280, R281). -/
  hostOut : List HostReply
  /-- The model's own: the number of free values taken so far (assumption 29). -/
  freeCount : Nat
  deriving DecidableEq, Repr

/-- The machine right after reset (10_state.md R42, 70_reset_and_hazards.md R290). -/
def State.reset : State where
  cfg := configDefault
  rsm := .idle
  mem := []
  flen := 0
  fields := blankTelegram
  reg := []
  regQ := []
  input := []
  telOut := []
  diagOut := []
  fnOut := none
  hostOut := []
  freeCount := 0

end Sys2Proof.Machine
end

