-- ==== Sys2Proof/Machine/Flags.lean ====
section
/-! DEFINITION. The CRC8 engine (spec/40_crc8.md) and the computation of every result flag and of the category of a frame
(spec/10_state.md R29). -/

namespace Sys2Proof.Machine

/-- One step of the CRC8 loop: `c <- CRC8_TABLE[c xor B[i]]` (40_crc8.md R122). -/
def crc8Step (table : List Byte) (c b : Byte) : Byte := table.getD (c ^^^ b).toNat 0

/-- `CRC8(B)`, initial value 0 (40_crc8.md R122). -/
def crc8 (table : List Byte) (bytes : Bytes) : Byte := bytes.foldl (crc8Step table) 0

/-- `verify(k, B) = (CRC8(B) = k)` (40_crc8.md R123). -/
def crc8Ok (table : List Byte) (k : Byte) (bytes : Bytes) : Bool := decide (crc8 table bytes = k)

/-- `CRCSUB_OK` of an ERP2 data region (44_erp2.md R181). -/
def subCrcOk (table : List Byte) (d : Bytes) : Bool :=
  if d.length = 0 then false else crc8Ok table (byteAt d (d.length - 1)) (bfSlice d 0 (d.length - 1))

/-- `CRC`: the AND of the checks performed (43_esp3_frame.md R170). -/
def crcAll (f : Telegram) : Bool :=
  f.crc8hOk && f.crc8dOk && (match f.crcsubOk with | none => true | some ok => ok)

/-- The category of a record, from `LEARN` and `KNOWN` alone (60_exceptions.md R271). -/
def category (f : Telegram) : TelTag :=
  if f.learn then .learn else if f.known then .known else .unknown

/-- `isKnown(e)`: the code is a key of `PROFILE_TABLE` (46_eep_dispatch.md R224). -/
def isKnown (table : List ProfileRow) (e : Option Eep) : Bool :=
  match e with
  | none => false
  | some c => table.any (fun r => decide (r.code = c))

end Sys2Proof.Machine
end

