-- ==== Sys2Proof/Machine/Ops.lean ====
section
/-! DEFINITION. The named operations over the frame space, the field registers, the registry and the ports, and the shared operation that
stands in TRB where a processor takes an exception: `degrade` (spec/00_scope.md R12, spec/60_exceptions.md R261, R275). -/

namespace Sys2Proof.Machine

/-- What an operation answers. -/
abbrev Answer := Host.Outcome State Fault Refusal

/-- One operation after another, stopping where the first stops. -/
def andThen (o : Answer) (k : State → Answer) : Answer :=
  match o with
  | .next s => k s
  | .fault r => .fault r
  | .refused r => .refused r

/-! The frame space (20_memory.md). -/

/-- The byte at an offset; `none` for an offset that holds no value (10_state.md R22). -/
def memRead : Mem → Nat → Option Byte
  | [], _ => none
  | c :: m, a => if c.1 = a then some c.2 else memRead m a

/-- Store one byte, offsets kept strictly rising. -/
def memWrite : Mem → Nat → Byte → Mem
  | [], a, b => [(a, b)]
  | c :: m, a, b =>
    if a < c.1 then (a, b) :: c :: m
    else if a = c.1 then (a, b) :: m
    else c :: memWrite m a b

/-- `MemWrite(addr, n, v)`; bytes at offsets at or beyond `BUF_CAP` are not stored (00_scope.md R12, 10_state.md R22). -/
def memWriteBytes (cap : Nat) : Mem → Nat → Bytes → Mem
  | m, _, [] => m
  | m, a, b :: bs => memWriteBytes cap (if a < cap then memWrite m a b else m) (a + 1) bs

/-- The `n` bytes from an offset on, if all of them hold a value. -/
def memReadBytes (m : Mem) (a : Nat) : Nat → Option Bytes
  | 0 => some []
  | n + 1 =>
    match memRead m a, memReadBytes m (a + 1) n with
    | some b, some bs => some (b :: bs)
    | _, _ => none

/-- The canonical form of the frame space: offsets strictly rising. -/
def Mem.wf : Mem → Bool
  | [] => true
  | [_] => true
  | c :: d :: m => decide (c.1 < d.1) && Mem.wf (d :: m)

/-- The length of the frame whose first four bytes these are: `VLEN = 6 + PEND_DLEN + PEND_OLEN + 1` (10_state.md R24). -/
def vlenOf (order : LenOrder) (head : Bytes) : Nat := 6 + bfU16 order head 1 + (byteAt head 3).toNat + 1

/-- `VLEN` of the frame-so-far, `none` where the buffer does not hold its first four bytes (10_state.md R24). -/
def vlen (s : State) : Option Nat := (memReadBytes s.mem 0 4).map (vlenOf s.cfg.lenOrder)

/-- A byte sequence that is one complete frame: the precondition of `ESP3.DECODE` (43_esp3_frame.md R160). -/
def frameOk (cfg : Config) (frame : Bytes) : Bool :=
  decide (7 ≤ frame.length) && decide (byteAt frame 0 = syncMarker) && decide (frame.length = vlenOf cfg.lenOrder frame)

/-! The field registers (10_state.md R25). -/

/-- Write the field registers. -/
def State.setFields (s : State) (f : Telegram) : State := { s with fields := f }

/-- The byte of `FRAME` at an offset; beyond its end, where R160 leaves nothing to read, a free value (43_esp3_frame.md R160;
assumption 32). -/
def frameByte (frame : Bytes) (i : Nat) : Byte :=
  match frame[i]? with
  | some b => b
  | none => Config.openFrame frame i

/-- `FRAME[off .. off+n)`, always `n` bytes (00_scope.md R11). -/
def frameBytes (frame : Bytes) (off : Nat) : Nat → Bytes
  | 0 => []
  | n + 1 => frameByte frame off :: frameBytes frame (off + 1) n

/-- The bytes of a slice of `FRAME`. -/
def sliceBytes (f : Telegram) (sl : Slice) : Bytes := frameBytes f.frame sl.off sl.len

/-- The data region `D`. -/
def dataBytes (f : Telegram) : Bytes := sliceBytes f f.data

/-- The optional region. -/
def optBytes (f : Telegram) : Bytes := sliceBytes f f.opt

/-- Data_DL; empty where none has been sliced. -/
def dlBytes (f : Telegram) : Bytes :=
  match f.dl with
  | none => []
  | some sl => sliceBytes f sl

/-- Put a reason code into the set `REASON` (10_state.md R25, 60_exceptions.md R261). -/
def addReason (r : Reason) (rs : List Reason) : List Reason := if r ∈ rs then rs else rs ++ [r]

/-- `degrade`: record a reason and go on (00_scope.md R12). This is what TRB does in place of taking an exception: "A fault saves nothing,
changes no mode, masks nothing and sends control nowhere" (60_exceptions.md R275). -/
def degrade (r : Reason) (f : Telegram) : Telegram := { f with reason := addReason r f.reason }

/-- The Unknown Report over a payload (46_eep_dispatch.md R225). -/
def unknownReport (payload : Bytes) : Report := ⟨[], none, false, payload⟩

/-- The opaque result with its reason (43_esp3_frame.md R165). The registers that R165 says stay `none` keep what they hold
(assumption 37). -/
def opaqueResult (r : Reason) (f : Telegram) : Telegram :=
  { degrade r f with isOpaque := true, report := unknownReport (dataBytes f), learn := false, known := false }

/-! The registry (10_state.md R33). -/

/-- `REG(id)` (00_scope.md R12). -/
def regLookup : List RegDevice → Id48 → Option RegDevice
  | [], _ => none
  | d :: ds, i => if d.id = i then some d else regLookup ds i

/-- Write a record under its id, ids kept strictly rising; a record with this id is overwritten (60_exceptions.md R280). -/
def regInsert (d : RegDevice) : List RegDevice → List RegDevice
  | [] => [d]
  | e :: ds =>
    if d.id < e.id then d :: e :: ds
    else if d.id = e.id then d :: ds
    else e :: regInsert d ds

/-- The canonical form of the registry: ids strictly rising, so each id has one record. -/
def regWf : List RegDevice → Bool
  | [] => true
  | [_] => true
  | d :: e :: ds => decide (d.id < e.id) && regWf (e :: ds)

/-- A registry record as the record in register `DEV` (44_erp2.md R189). -/
def deviceOf (d : RegDevice) : Device := ⟨d.id, some d.eep, d.name, d.manufacturer.map .text, d.learned⟩

/-- The transient record of an originator that the registry does not know (44_erp2.md R189). -/
def transientDevice (id : Id48) (eep : Option Eep) (manuf : Option (BitVec 11)) : Device :=
  ⟨id, eep, none, manuf.map .id, false⟩

/-! The output ports. -/

/-- `emit` of a completed frame: the category event and then `data`, both with the record (60_exceptions.md R270, R272). -/
def emit (s : State) (f : Telegram) : State :=
  { s with telOut := s.telOut ++ [⟨category f, f⟩, ⟨.data, f⟩] }

/-- A pulse on `DIAG_OUT` (10_state.md R38). -/
def pulse (s : State) (e : DiagEvent) : State := { s with diagOut := s.diagOut ++ [e] }

/-- The answer of a pure-function port (10_state.md R39). -/
def answerPort (s : State) (r : FnResult) : State := { s with fnOut := some r }

/-- The answer of a host interface. -/
def replyHost (s : State) (r : HostReply) : State := { s with hostOut := s.hostOut ++ [r] }

end Sys2Proof.Machine
end

