-- ==== Sys2Proof/Machine/Leaf.lean ====
section
/-! DEFINITION. The leaf units at their function ports: the CRC8 engine (spec/40_crc8.md) and the bit-field extractors
(spec/41_bitfield.md). Each operation puts its result on the port and changes nothing else. -/

namespace Sys2Proof.Machine

/-- `CRC8.COMPUTE` (40_crc8.md R122). -/
def execCrc8Compute (bytes : Bytes) (s : State) : Answer :=
  .next (answerPort s (.byte (crc8 s.cfg.crc8Table bytes)))

/-- `CRC8.VERIFY` (40_crc8.md R123). -/
def execCrc8Verify (candidate : Byte) (bytes : Bytes) (s : State) : Answer :=
  .next (answerPort s (.bool (crc8Ok s.cfg.crc8Table candidate bytes)))

/-- `BF.BIT` (41_bitfield.md R131). -/
def execBfBit (b : Byte) (idx : Fin 8) (s : State) : Answer :=
  .next (answerPort s (.num (bfBit b idx.val)))

/-- `BF.FIELD` (41_bitfield.md R132); for `hi < lo` the result is a free value (assumption 28). -/
def execBfField (b : Byte) (hi lo : Fin 8) (s : State) : Answer :=
  .next (answerPort s (.num (if lo ≤ hi then bfField b hi.val lo.val else Config.openField b hi.val lo.val)))

/-- `BF.CAT` (41_bitfield.md R133); where an operand does not fit its width the result is a free value, of the width `wa + wb` that the
rule states (assumption 28). -/
def execBfCat (a wa b wb : Nat) (s : State) : Answer :=
  .next (answerPort s (.num (if a < 2 ^ wa ∧ b < 2 ^ wb then bfCat a b wb else Config.openCat a wa b wb % 2 ^ (wa + wb))))

/-- `BF.U16` (41_bitfield.md R134); past the end of the bytes the result is a free value of 16 bits (assumption 28). -/
def execBfU16 (bytes : Bytes) (offset : Nat) (s : State) : Answer :=
  .next (answerPort s (.num
    (if offset + 2 ≤ bytes.length then bfU16 s.cfg.lenOrder bytes offset
     else (Config.openU16 s.cfg.lenOrder bytes offset).toNat)))

/-- `BF.SLICE` (41_bitfield.md R135), "empty when `a >= b`" (00_scope.md R11); past the end of the bytes the result is a free value
(assumption 28). -/
def execBfSlice (bytes : Bytes) (start stop : Nat) (s : State) : Answer :=
  .next (answerPort s (.bytes
    (if stop ≤ start ∨ stop ≤ bytes.length then bfSlice bytes start stop else Config.openSlice bytes start stop)))

/-- `BF.IDNORM` (41_bitfield.md R136); for another length than 3, 4 or 6 the result is a free value of 48 bits (assumption 28). -/
def execBfIdnorm (id : Bytes) (s : State) : Answer :=
  .next (answerPort s (.id
    (if id.length = 3 ∨ id.length = 4 ∨ id.length = 6 then bfIdnorm id else Config.openIdnorm id)))

end Sys2Proof.Machine
end

