-- ==== Sys2Proof/Machine/Text.lean ====
section
/-! DEFINITION. The textual forms of profile identifiers and device ids and their normalisation (spec/30_encoding.md R105 to R107,
spec/60_exceptions.md R280). -/

namespace Sys2Proof.Machine

/-- The value of a hex digit of either letter case. -/
def hexVal (c : Char) : Option Nat :=
  let n := c.toNat
  if 48 ≤ n ∧ n ≤ 57 then some (n - 48)
  else if 65 ≤ n ∧ n ≤ 70 then some (n - 55)
  else if 97 ≤ n ∧ n ≤ 102 then some (n - 87)
  else none

/-- The upper-case hex digit of a value below 16. -/
def hexDigit (n : Nat) : Char := if n < 10 then Char.ofNat (48 + n) else Char.ofNat (55 + n)

/-- The value of hex digits, the first most significant. -/
def digitsValue (ds : List Nat) : Nat := ds.foldl (fun v d => v * 16 + d) 0

/-- The domain on which `NormEEP` is normative: hex digits, spaces, hyphens and colons (30_encoding.md R105). -/
def eepTextOk (s : Text) : Bool :=
  s.all (fun c => (hexVal c).isSome || decide (c = ' ') || decide (c = '-') || decide (c = ':'))

/-- `NormEEP(s)` (30_encoding.md R105). -/
def normEep (s : Text) : Option Eep :=
  let ds := s.filterMap hexVal
  if ds.length = 6 then some (BitVec.ofNat 24 (digitsValue ds)) else none

/-- The canonical form "RR-FF-TT" of a profile code (30_encoding.md R94). -/
def canonicalEep (e : Eep) : Text :=
  let d (k : Nat) : Char := hexDigit ((e.toNat >>> k) % 16)
  [d 20, d 16, '-', d 12, d 8, '-', d 4, d 0]

/-- `isKnown` on a text: membership of the canonical form, case-sensitive (30_encoding.md R107). -/
def isKnownText (table : List ProfileRow) (s : Text) : Bool :=
  table.any (fun r => decide (canonicalEep r.code = s))

/-- A whitespace character: space, or the characters 9 to 13 (assumption 14). -/
def isSpace (c : Char) : Bool := decide (c.toNat = 32) || (decide (9 ≤ c.toNat) && decide (c.toNat ≤ 13))

/-- `NormID(s)`; `none` for its validation error (30_encoding.md R106). -/
def normId (s : Text) : Option Id48 :=
  let t := s.filter (fun c => !(isSpace c) && decide (c ≠ '-'))
  if t.all (fun c => (hexVal c).isSome) then
    if t.length = 6 ∨ t.length = 8 ∨ t.length = 12 then
      some (BitVec.ofNat 48 (digitsValue (t.filterMap hexVal)))
    else none
  else none

/-- The profile identifier at the teach interface: two hex digits three times with hyphens between, in either letter case; `none` for
its validation error (60_exceptions.md R280). -/
def teachEep (s : Text) : Option Eep :=
  match s with
  | [a, b, h, c, d, k, e, f] =>
    if h = '-' ∧ k = '-' then
      let ds := [a, b, c, d, e, f].filterMap hexVal
      if ds.length = 6 then some (BitVec.ofNat 24 (digitsValue ds)) else none
    else none
  | _ => none

/-- A name or manufacturer text that the teach interface accepts: absent, or at most 50 characters (60_exceptions.md R280). -/
def textFits (t : Option Text) : Bool :=
  match t with
  | none => true
  | some s => decide (s.length ≤ 50)

end Sys2Proof.Machine
end

