-- ==== Sys2Proof/Machine/Eep.lean ====
section
/-! DEFINITION. The payload dispatch (spec/46_eep_dispatch.md) and the profile decoders (spec/47_profiles.md). -/

namespace Sys2Proof.Machine

/-- The D5-00-01 decoder: contact in bit 0, LRN in bit 3 (47_profiles.md R241, R242). -/
def contactReport (payload : Bytes) : Report :=
  let contact := bfBit (byteAt payload 0) 0
  { value := [(.contact, .raw contact)]
    desc := some (if contact = 1 then .closed else .opened)
    learn := decide (bfBit (byteAt payload 0) 3 = 0)
    raw := payload }

/-- `num / den` rounded to `digits` decimal digits, half away from zero, as an integer number of `10 ^ -digits` (47_profiles.md R245). -/
def roundDecimal (num : Int) (den digits : Nat) : Int :=
  let m : Nat := (2 * num.natAbs * 10 ^ digits + den) / (2 * den)
  if num < 0 then -(m : Int) else m

/-- The A5-02-05 decoder: `T = 40 * (255 - raw) / 255`, raw in DB1, LRN in bit 3 of DB0 (47_profiles.md R244, R245). -/
def temperatureReport (digits : Nat) (payload : Bytes) : Report :=
  let raw : Int := (byteAt payload 2).toNat
  let num := 40 * (255 - raw)
  let rounded := roundDecimal num 255 digits
  { value := [(.temperatureRaw, .raw raw), (.temperature, .measured num 255 rounded digits)]
    desc := some (.temperature rounded digits)
    learn := decide (bfBit (byteAt payload 3) 3 = 0)
    raw := payload }

/-- The decoder of a `PROFILE_TABLE` entry; a profile that the spec leaves open has a Report of the common shape whose value,
description and learn flag are free (47_profiles.md R248; assumption 9). -/
def profileReport (digits : Nat) (dec : ProfileDec) (payload : Bytes) : Report :=
  match dec with
  | .contactSwitch => contactReport payload
  | .temperature => temperatureReport digits payload
  | .other k => ⟨Config.otherValue k payload, Config.otherDesc k payload, Config.otherLearn k payload, payload⟩

/-- The row of `PROFILE_TABLE` with this key (46_eep_dispatch.md R221). -/
def profileFind (table : List ProfileRow) (c : Eep) : Option ProfileRow := table.find? (fun r => decide (r.code = c))

/-- The row of an entry of `PROFILE_TABLE` (30_encoding.md R95): its decoder over a payload of its length, the Unknown Report with its
reason over any other (46_eep_dispatch.md R223, R227). -/
def rowReport (digits : Nat) (row : ProfileRow) (payload : Bytes) : Report × Option Reason :=
  if payload.length = row.len then (profileReport digits row.dec payload, none)
  else (unknownReport payload, some .eepLength)

/-- `EEP.DECODE` on a code, with the reason it degrades for, if it does (46_eep_dispatch.md R223). -/
def dispatch (cfg : Config) (e : Option Eep) (payload : Bytes) : Report × Option Reason :=
  match e with
  | none => (unknownReport payload, some .eepAbsent)
  | some c =>
    match profileFind cfg.profileTable c with
    | none => (unknownReport payload, some .eepUnregistered)
    | some row => rowReport cfg.valueDigits row payload

/-- Register `REPORT`, and `REASON` where the dispatch degrades (46_eep_dispatch.md R223). -/
def setReport (r : Report) (why : Option Reason) (f : Telegram) : Telegram :=
  match why with
  | none => { f with report := r }
  | some w => { degrade w f with report := r }

/-- The dispatch at its port and in its registers: `REPORT`, `REASON`, the answer. R220 gives a Report only: that the port's answer
carries the reason of a degrade beside it is the model's choice (assumption 36). -/
def runDispatch (e : Option Eep) (payload : Bytes) (s : State) : State :=
  let d := dispatch s.cfg e payload
  answerPort (s.setFields (setReport d.1 d.2 s.fields)) (.report d.1 d.2)

/-- `EEP.DECODE` (46_eep_dispatch.md R223); a text is normalised first, and one outside the domain of `NormEEP` has no meaning
(30_encoding.md R105). -/
def execEepDecode (e : EepArg) (payload : Bytes) (s : State) : Answer :=
  match e with
  | .code c => .next (runDispatch c payload s)
  | .text t => if eepTextOk t then .next (runDispatch (normEep t) payload s) else .refused .eepText

/-- `EEP.ISKNOWN` (46_eep_dispatch.md R224); on a text it takes the canonical form only (30_encoding.md R107). -/
def execEepIsknown (e : EepArg) (s : State) : Answer :=
  match e with
  | .code c => .next (answerPort s (.bool (isKnown s.cfg.profileTable c)))
  | .text t => .next (answerPort s (.bool (isKnownText s.cfg.profileTable t)))

/-- A row of the dispatch on the frame's Data_DL: `REPORT`, and `REASON` where it degrades. Where no Data_DL has been sliced there is no
payload of the row's length, so the row gives the Unknown Report and `absent`, its `raw` bytes a free value (assumptions 26, 29). -/
def runRow (row : Bytes → Report × Option Reason) (absent : Option Reason) (s : State) : State :=
  match s.fields.dl with
  | some _ => s.setFields (setReport (row (dlBytes s.fields)).1 (row (dlBytes s.fields)).2 s.fields)
  | none =>
    { s with
      fields := setReport (unknownReport (Config.absentPayload s.freeCount)) absent s.fields
      freeCount := s.freeCount + 1 }

/-- The row of an entry of `PROFILE_TABLE` on the frame's Data_DL. -/
def runEntry (row : ProfileRow) (s : State) : State := runRow (rowReport s.cfg.valueDigits row) (some .eepLength) s

/-- `EEP.D5-00-01`, a row of 1 byte (30_encoding.md R95, 47_profiles.md R241). -/
def execEepD50001 (s : State) : Answer := .next (runEntry ⟨codeD50001, 1, .contactSwitch⟩ s)

/-- `EEP.A5-02-05`, a row of 4 bytes (30_encoding.md R95, 47_profiles.md R244). -/
def execEepA50205 (s : State) : Answer := .next (runEntry ⟨codeA50205, 4, .temperature⟩ s)

/-- The rows of any other key: "A model built with a larger `PROFILE_TABLE` adds one row per entry; the default row stays last"
(30_encoding.md R95). A key that is in the table selects the row of its entry, any other `EEP.UNKNOWN`, the Unknown Report
(46_eep_dispatch.md R225; assumption 26). -/
def execEepUnknown (code : Option Eep) (s : State) : Answer :=
  match code.bind (profileFind s.cfg.profileTable) with
  | some row => .next (runEntry row s)
  | none => .next (runRow (fun payload => (unknownReport payload, none)) none s)

end Sys2Proof.Machine
end

