-- ==== Sys2Proof/Machine/Radio.lean ====
section
/-! DEFINITION. What the two radio decoders share: the Teach-In sub-formats (spec/30_encoding.md R98 to R100), the registry lookup, the
resolution of profile and device, and the payload message (spec/44_erp2.md R187 to R192, spec/45_erp1.md R206 to R211). -/

namespace Sys2Proof.Machine

/-- The entry of a written-out function for a payload. -/
def lookupPayload {α : Type} (rows : List (Bytes × α)) (others : α) (payload : Bytes) : α :=
  match rows with
  | [] => others
  | r :: rs => if r.1 = payload then r.2 else lookupPayload rs others payload

/-- What `TEACHIN_4BS` yields for a payload that is a Teach-In: in the default layout the profile and the manufacturer, both or neither
(30_encoding.md R98). -/
def yield4bs (t : Teachin4bs) (payload : Bytes) : Yield4bs :=
  match t with
  | .layout l =>
    if extract payload l.lrnType = 1 then
      ⟨some (eepOf rorg4bs.toNat (extract payload l.func) (extract payload l.type)),
       some (BitVec.ofNat 11 (extract payload l.manuf))⟩
    else ⟨none, none⟩
  | .table rows others => lookupPayload rows others payload

/-- `TEACHIN_4BS`: `some` exactly when the payload is 4 bytes and `DB0[3] = 0`, which is no part of the parameter (30_encoding.md R98,
93_implementation_defined.md U17). -/
def teachIn4bs (t : Teachin4bs) (payload : Bytes) : Option TeachIn :=
  if payload.length = 4 ∧ bfBit (byteAt payload 3) 3 = 0 then
    some ⟨(yield4bs t payload).eep, (yield4bs t payload).manuf, none⟩
  else none

/-- The 1BS Teach-In of ERP2: `some` exactly when the payload is 1 byte and its bit 3 is 0; it yields nothing (30_encoding.md R99). -/
def teachIn1bs (payload : Bytes) : Option TeachIn :=
  if payload.length = 1 ∧ bfBit (byteAt payload 0) 3 = 0 then some ⟨none, none, none⟩ else none

/-- What `TEACHIN_UTE` yields for a payload of 7 bytes (30_encoding.md R100, 45_erp1.md R213). -/
def yieldUte (t : TeachinUte) (payload : Bytes) : YieldUte :=
  match t with
  | .layout l =>
    ⟨eepOf (extract payload l.rorg) (extract payload l.func) (extract payload l.type),
     BitVec.ofNat 11 (extract payload l.manuf),
     ⟨extract payload l.dir, extract payload l.noresp, extract payload l.result, extract payload l.cmd,
      extract payload l.channels⟩⟩
  | .table rows others => lookupPayload rows others payload

/-- `TEACHIN_UTE`: `some` exactly when the payload is 7 bytes, which is no part of the parameter; it always carries the profile and the
manufacturer (45_erp1.md R207, R213, 93_implementation_defined.md U17). -/
def teachInUte (t : TeachinUte) (payload : Bytes) : Option TeachIn :=
  if payload.length = 7 then
    some ⟨some (yieldUte t payload).eep, some (yieldUte t payload).manuf, some (yieldUte t payload).ute⟩
  else none

/-- Registers `TI` and `MANUF` (44_erp2.md R188, 45_erp1.md R207). -/
def setTeachIn (ti : Option TeachIn) (f : Telegram) : Telegram :=
  { f with ti := ti, manuf := ti.bind TeachIn.manuf }

/-- The value map of a teach-in report: the fields of the Teach-In record (46_eep_dispatch.md R229). A field of the record that is `none`
has no entry, which is the model's choice (assumption 30). -/
def teachInValue (ti : TeachIn) : List (FieldName × Val) :=
  (match ti.eep with | none => [] | some e => [(.eep, .raw e.toNat)]) ++
  ((match ti.manuf with | none => [] | some m => [(.manuf, .raw m.toNat)]) ++
  (match ti.ute with
   | none => []
   | some u => [(.dir, .raw u.dir), (.noresp, .raw u.noresp), (.result, .raw u.result), (.cmd, .raw u.cmd),
                (.channels, .raw u.channels)]))

/-- The teach-in report (46_eep_dispatch.md R229). -/
def teachInReport (ti : TeachIn) (payload : Bytes) : Report := ⟨teachInValue ti, none, true, payload⟩

/-- Present an id on `REG_Q` (10_state.md R36). -/
def askRegistry (s : State) (id : Id48) : State := { s with regQ := s.regQ ++ [id] }

/-- Register `EEP`: the Teach-In's profile if it yields one, else the registry's (44_erp2.md R190, 45_erp1.md R209). -/
def resolveEep (found : Option RegDevice) (f : Telegram) : Telegram :=
  { f with eep := match f.ti.bind TeachIn.eep with | some e => some e | none => found.map RegDevice.eep }

/-- Registers `REPORT` and `LEARN`: the teach-in report, or the dispatch over Data_DL (44_erp2.md R192, 45_erp1.md R211). -/
def payloadMessage (cfg : Config) (f : Telegram) : Telegram :=
  match f.ti with
  | some ti => { f with report := teachInReport ti (dlBytes f), learn := true }
  | none =>
    let d := dispatch cfg f.eep (dlBytes f)
    { setReport d.1 d.2 f with learn := d.1.learn }

/-- Register `DEV`: the registry's record, or a transient one (44_erp2.md R189, 45_erp1.md R208). -/
def resolveDevice (id : Id48) (found : Option RegDevice) (f : Telegram) : Telegram :=
  { f with dev := some (match found with | some d => deviceOf d | none => transientDevice id f.eep f.manuf) }

/-- Register `KNOWN` (44_erp2.md R191, 45_erp1.md R210). -/
def setKnown (cfg : Config) (f : Telegram) : Telegram := { f with known := isKnown cfg.profileTable f.eep }

/-- The end of a radio decode, after the Teach-In decode (44_erp2.md R189 to R192, 45_erp1.md R208 to R211). -/
def finishRadio (cfg : Config) (id : Id48) (found : Option RegDevice) (f : Telegram) : Telegram :=
  setKnown cfg (resolveDevice id found (payloadMessage cfg (resolveEep found f)))

/-- The lookup, the Teach-In decode that the key selects, and the end of the radio decode: one lookup, of the frame's originator id
(44_erp2.md R187 to R192, 45_erp1.md R206 to R211). -/
def radioTail (teach : State → Answer) (s : State) : Answer :=
  let id := s.fields.oid.getD 0
  andThen (teach (askRegistry s id)) fun t =>
    .next (t.setFields (finishRadio t.cfg id (regLookup t.reg id) t.fields))

end Sys2Proof.Machine
end

