-- ==== Sys2Proof/Machine/Erp1.lean ====
section
/-! DEFINITION. The ERP1 radio decoder (spec/45_erp1.md). -/

namespace Sys2Proof.Machine

/-- `ERP1.SHORT`: the opaque result if `n < 7` (45_erp1.md R201); "when it does not match the decode simply goes on"
(30_encoding.md R80). -/
def execErp1Short (s : State) : Answer :=
  if (dataBytes s.fields).length < 7 then .next (s.setFields (opaqueResult .erp1Short s.fields)) else .next s

/-- The fields of an ERP1 data region `d` of `n >= 7` bytes (45_erp1.md R202 to R205). -/
def erp1Slices (d : Bytes) (f : Telegram) : Telegram :=
  let n := d.length
  { f with
    rorg := some (byteAt d 0)
    status := some (byteAt d (n - 1))
    rpt := some (BitVec.ofNat 4 (bfField (byteAt d (n - 1)) 3 0))
    oid := some (bfIdnorm (bfSlice d (n - 5) (n - 1)))
    oidw := some .w4
    did := none
    dl := some ⟨f.data.off + 1, n - 6⟩ }

/-- `ERP1.FIELDS` on a region of `n >= 7` bytes (45_erp1.md R202 to R205); a shorter one gives the opaque result (30_encoding.md R102;
assumption 33). -/
def execErp1Fields (s : State) : Answer :=
  if 7 ≤ (dataBytes s.fields).length then .next (s.setFields (erp1Slices (dataBytes s.fields) s.fields))
  else .next (s.setFields (opaqueResult .erp1Short s.fields))

/-- A Teach-In decode of the frame's Data_DL; where none has been sliced there is no payload of the length that the decoder asks for, so
it is not a Teach-In (45_erp1.md R207, 30_encoding.md R98, R100: "otherwise `none`"; assumption 29). The `RORG` register is not tested
(assumption 35). -/
def erp1Teach (decoder : Bytes → Option TeachIn) (s : State) : Answer :=
  .next (s.setFields (setTeachIn ((s.fields.dl.map (sliceBytes s.fields)).bind decoder) s.fields))

/-- `ERP1.TI4BS` (45_erp1.md R207). -/
def execErp1Ti4bs (s : State) : Answer := erp1Teach (teachIn4bs s.cfg.teachin4bs) s

/-- `ERP1.TIUTE` (45_erp1.md R207). -/
def execErp1Tiute (s : State) : Answer := erp1Teach (teachInUte s.cfg.teachinUte) s

/-- `ERP1.TI1BS`: the stub, never a Teach-In (45_erp1.md R207). -/
def execErp1Ti1bs (s : State) : Answer := erp1Teach (fun _ => none) s

/-- `ERP1.TINONE`: never a Teach-In (45_erp1.md R207). -/
def execErp1Tinone (_rorg : Byte) (s : State) : Answer := erp1Teach (fun _ => none) s

/-- The Teach-In operation that the RORG byte selects (30_encoding.md R87). -/
def erp1TeachRow (rorg : Byte) (s : State) : Answer :=
  if rorg = rorg4bs then execErp1Ti4bs s
  else if rorg = rorgUte then execErp1Tiute s
  else if rorg = rorg1bs then execErp1Ti1bs s
  else execErp1Tinone rorg s

/-- `ERP1.DECODE` (45_erp1.md R200). -/
def execErp1Decode (s : State) : Answer :=
  let s0 := s.setFields { s.fields with crcsubOk := none }
  if (dataBytes s0.fields).length < 7 then execErp1Short s0
  else
    andThen (execErp1Fields s0) fun s1 =>
      radioTail (erp1TeachRow (byteAt (dataBytes s1.fields) 0)) s1

end Sys2Proof.Machine
end

