-- ==== Sys2Proof/Machine/Erp2.lean ====
section
/-! DEFINITION. The ERP2 radio decoder (spec/44_erp2.md). -/

namespace Sys2Proof.Machine

/-- `ERP2.SUBCRC` (44_erp2.md R181). -/
def execErp2Subcrc (s : State) : Answer :=
  let ok := subCrcOk s.cfg.crc8Table (dataBytes s.fields)
  let f := if ok then s.fields else degrade .subCrc s.fields
  .next (s.setFields { f with crcsubOk := some ok })

/-- The opaque result of an empty data region: "`degrade ERP2_SHORT` with `AC`, `EHA`, `TT`, `RORG` = `none`" (44_erp2.md R195). -/
def erp2Empty (f : Telegram) : Telegram :=
  opaqueResult .erp2Short { f with ac := none, eha := none, tt := none, rorg := none }

/-- `ERP2.HDRBYTE` on a region of `n >= 1` bytes (44_erp2.md R182); an empty one gives the opaque result (30_encoding.md R102,
44_erp2.md R195; assumption 33). -/
def execErp2Hdrbyte (s : State) : Answer :=
  let d := dataBytes s.fields
  if 1 ≤ d.length then
    let h := byteAt d 0
    .next (s.setFields { s.fields with ac := some (headerAc h), eha := some (headerEha h), tt := some (headerTt h) })
  else .next (s.setFields (erp2Empty s.fields))

/-- The `AC_TABLE` entry of an Address Control value, `none` for a reserved one (30_encoding.md R92). -/
def acLookup (cfg : Config) (ac : BitVec 3) : Option AcRow := cfg.acTable.getD ac.toNat none

/-- Originator and destination id of an ERP2 data region `d` (44_erp2.md R184, R185). -/
def erp2Ids (d : Bytes) (row : AcRow) (f : Telegram) : Telegram :=
  let w := widthBytes row.width
  { f with
    oidw := some row.width
    oid := some (bfIdnorm (bfSlice d 1 (1 + w)))
    did := if row.hasDid then some (BitVec.ofNat 32 (bytesValue (bfSlice d (1 + w) (5 + w)))) else none }

/-- The Address Control operation of a value: a reserved one degrades, any other slices the ids of a region with `n >= w + v + 2`; a
shorter one gives the opaque result (44_erp2.md R180, R184, R195, 30_encoding.md R102; assumption 33). The `AC` register is not tested
(assumption 35). Run alone on an empty region it does not test `n = 0` first, as R195 and R274 do in the pipeline: a reserved value gives
`ERP2_AC_RESERVED` there too, any other `ERP2_SHORT`, and `AC`, `EHA`, `TT` and `RORG` keep their values, the model's choice
(assumption 38). -/
def erp2AcRow (ac : BitVec 3) (s : State) : Answer :=
  match acLookup s.cfg ac with
  | none => .next (s.setFields (opaqueResult .erp2AcReserved s.fields))
  | some row =>
    if acNeed row ≤ (dataBytes s.fields).length then .next (s.setFields (erp2Ids (dataBytes s.fields) row s.fields))
    else .next (s.setFields (opaqueResult .erp2Short s.fields))

/-- `ERP2.AC0` (44_erp2.md R184). -/
def execErp2Ac0 (_eha : BitVec 1) (_tt : BitVec 4) (s : State) : Answer := erp2AcRow 0 s

/-- `ERP2.AC1` (44_erp2.md R184). -/
def execErp2Ac1 (_eha : BitVec 1) (_tt : BitVec 4) (s : State) : Answer := erp2AcRow 1 s

/-- `ERP2.AC2` (44_erp2.md R184). -/
def execErp2Ac2 (_eha : BitVec 1) (_tt : BitVec 4) (s : State) : Answer := erp2AcRow 2 s

/-- `ERP2.AC3` (44_erp2.md R184). -/
def execErp2Ac3 (_eha : BitVec 1) (_tt : BitVec 4) (s : State) : Answer := erp2AcRow 3 s

/-- `ERP2.ACRSV` (44_erp2.md R195). -/
def execErp2Acrsv (ac : BitVec 2) (_eha : BitVec 1) (_tt : BitVec 4) (s : State) : Answer :=
  erp2AcRow (BitVec.ofNat 3 (bfCat 1 ac.toNat 2)) s

/-- `ERP2.EHA`: the opaque result (44_erp2.md R194). It tests neither the `EHA` register nor the guards that come before it in
`ERP2.DECODE`: run alone it has its effect whatever `EHA` and the data region hold, the model's choice (assumptions 35, 38). -/
def execErp2Eha (_ac : BitVec 3) (_tt : BitVec 4) (s : State) : Answer :=
  .next (s.setFields (opaqueResult .erp2Eha s.fields))

/-- Data_DL of an ERP2 data region of `n` bytes (44_erp2.md R186). -/
def erp2Dl (n : Nat) (row : AcRow) (f : Telegram) : Telegram :=
  let a := 1 + widthBytes row.width + didBytes row
  { f with dl := some ⟨f.data.off + a, n - 1 - a⟩ }

/-- `TT_TABLE[TT]` into `RORG` (44_erp2.md R183). -/
def erp2Rorg (cfg : Config) (tt : BitVec 4) (f : Telegram) : Telegram := { f with rorg := cfg.ttTable.getD tt.toNat none }

/-- The Teach-In decoder that a Telegram Type runs over Data_DL (44_erp2.md R188). -/
def erp2TeachIn (cfg : Config) (tt : BitVec 4) (payload : Bytes) : Option TeachIn :=
  if tt = 2 then teachIn4bs cfg.teachin4bs payload
  else if tt = 1 then teachIn1bs payload
  else none

/-- A Telegram Type operation: it reports the RORG and, once Data_DL has been sliced, runs the Teach-In decoder of the type
(44_erp2.md R183, R188). The `TT` register is not tested (assumption 35). -/
def erp2TtRow (tt : BitVec 4) (s : State) : Answer :=
  let f := erp2Rorg s.cfg tt s.fields
  match f.dl with
  | none => .next (s.setFields f)
  | some _ => .next (s.setFields (setTeachIn (erp2TeachIn s.cfg tt (dlBytes f)) f))

/-- `ERP2.TT0` (44_erp2.md R183). -/
def execErp2Tt0 (_ac : BitVec 3) (_eha : BitVec 1) (s : State) : Answer := erp2TtRow 0 s

/-- `ERP2.TT1` (44_erp2.md R183). -/
def execErp2Tt1 (_ac : BitVec 3) (_eha : BitVec 1) (s : State) : Answer := erp2TtRow 1 s

/-- `ERP2.TT2` (44_erp2.md R183). -/
def execErp2Tt2 (_ac : BitVec 3) (_eha : BitVec 1) (s : State) : Answer := erp2TtRow 2 s

/-- `ERP2.TT3` (44_erp2.md R183). -/
def execErp2Tt3 (_ac : BitVec 3) (_eha : BitVec 1) (s : State) : Answer := erp2TtRow 3 s

/-- `ERP2.TT4` (44_erp2.md R183). -/
def execErp2Tt4 (_ac : BitVec 3) (_eha : BitVec 1) (s : State) : Answer := erp2TtRow 4 s

/-- `ERP2.TT5` (44_erp2.md R183). -/
def execErp2Tt5 (_ac : BitVec 3) (_eha : BitVec 1) (s : State) : Answer := erp2TtRow 5 s

/-- `ERP2.TT6` (44_erp2.md R183). -/
def execErp2Tt6 (_ac : BitVec 3) (_eha : BitVec 1) (s : State) : Answer := erp2TtRow 6 s

/-- `ERP2.TT7` (44_erp2.md R183). -/
def execErp2Tt7 (_ac : BitVec 3) (_eha : BitVec 1) (s : State) : Answer := erp2TtRow 7 s

/-- `ERP2.TT8` (44_erp2.md R183). -/
def execErp2Tt8 (_ac : BitVec 3) (_eha : BitVec 1) (s : State) : Answer := erp2TtRow 8 s

/-- `ERP2.TT9` (44_erp2.md R183). -/
def execErp2Tt9 (_ac : BitVec 3) (_eha : BitVec 1) (s : State) : Answer := erp2TtRow 9 s

/-- `ERP2.TT10` (44_erp2.md R183). -/
def execErp2Tt10 (_ac : BitVec 3) (_eha : BitVec 1) (s : State) : Answer := erp2TtRow 10 s

/-- `ERP2.TTRSV`, Telegram Type 11 (44_erp2.md R183). -/
def execErp2Ttrsv11 (_ac : BitVec 3) (_eha : BitVec 1) (s : State) : Answer := erp2TtRow 11 s

/-- `ERP2.TTRSV`, Telegram Type 12 (44_erp2.md R183). -/
def execErp2Ttrsv12 (_ac : BitVec 3) (_eha : BitVec 1) (s : State) : Answer := erp2TtRow 12 s

/-- `ERP2.TTRSV`, Telegram Type 13 (44_erp2.md R183). -/
def execErp2Ttrsv13 (_ac : BitVec 3) (_eha : BitVec 1) (s : State) : Answer := erp2TtRow 13 s

/-- `ERP2.TTRSV`, Telegram Type 14 (44_erp2.md R183). -/
def execErp2Ttrsv14 (_ac : BitVec 3) (_eha : BitVec 1) (s : State) : Answer := erp2TtRow 14 s

/-- `ERP2.TTEXT`: no extended-type byte is skipped (44_erp2.md R183). -/
def execErp2Ttext (_ac : BitVec 3) (_eha : BitVec 1) (s : State) : Answer := erp2TtRow 15 s

/-- The region is shorter than the addressing that it announces: `n < w + v + 2` for the Address Control that was read
(44_erp2.md R195). -/
def erp2IsShort (s : State) : Bool :=
  match s.fields.ac.bind (acLookup s.cfg) with
  | none => false
  | some row => decide ((dataBytes s.fields).length < acNeed row)

/-- `ERP2.SHORT`: the opaque result if `n = 0` or `n < w + v + 2` (44_erp2.md R195); "when it does not match the decode simply goes on"
(30_encoding.md R80). -/
def execErp2Short (s : State) : Answer :=
  if (dataBytes s.fields).length = 0 then .next (s.setFields (erp2Empty s.fields))
  else if erp2IsShort s then .next (s.setFields (opaqueResult .erp2Short s.fields))
  else .next s

/-- The rest of `ERP2.DECODE` once the header byte is known: the degrade tests in their order, the slices, the Teach-In, the profile
(44_erp2.md R180, 60_exceptions.md R274). -/
def erp2Body (h : Byte) (s : State) : Answer :=
  match acLookup s.cfg (headerAc h) with
  | none => erp2AcRow (headerAc h) s
  | some row =>
    if headerEha h = 1 then execErp2Eha (headerAc h) (headerTt h) s
    else if (dataBytes s.fields).length < acNeed row then execErp2Short s
    else
      andThen (erp2AcRow (headerAc h) s) fun t =>
        radioTail (erp2TtRow (headerTt h)) (t.setFields (erp2Dl (dataBytes t.fields).length row t.fields))

/-- `ERP2.DECODE` (44_erp2.md R180). The step of R183 writes `RORG` only; the Teach-In decode of the Telegram Type stands after the slices
(assumption 22). A guard that degrades leaves what was in the registers that it does not write (assumption 37). -/
def execErp2Decode (s : State) : Answer :=
  andThen (execErp2Subcrc s) fun s1 =>
    if (dataBytes s1.fields).length = 0 then execErp2Short s1
    else
      andThen (execErp2Hdrbyte s1) fun s2 =>
        let h := byteAt (dataBytes s2.fields) 0
        erp2Body h (s2.setFields (erp2Rorg s2.cfg (headerTt h) s2.fields))

end Sys2Proof.Machine
end

