-- ==== Sys2Proof/Machine/Esp3.lean ====
section
/-! DEFINITION. The ESP3 frame decoder (spec/43_esp3_frame.md). -/

namespace Sys2Proof.Machine

/-- `ESP3.HDR` (43_esp3_frame.md R161). -/
def execEsp3Hdr (s : State) : Answer :=
  let fr := s.fields.frame
  .next (s.setFields
    { s.fields with
      dlen := BitVec.ofNat 16 (bfU16 s.cfg.lenOrder (frameBytes fr 0 6) 1)
      olen := frameByte fr 3
      ptype := frameByte fr 4
      crc8h := frameByte fr 5 })

/-- `ESP3.CRC8H` (43_esp3_frame.md R162). -/
def execEsp3Crc8h (s : State) : Answer :=
  let fr := s.fields.frame
  let ok := crc8Ok s.cfg.crc8Table (frameByte fr 5) (frameBytes fr 1 4)
  let f := if ok then s.fields else degrade .hdrCrc s.fields
  .next (s.setFields { f with crc8hOk := ok })

/-- `DATA <- FRAME[6 .. 6+DLEN)` and `KIND` (43_esp3_frame.md R163, R164). -/
def selectData (k : Kind) (f : Telegram) : Telegram := { f with data := ⟨6, f.dlen.toNat⟩, kind := k }

/-- `ESP3.ERP1` (43_esp3_frame.md R163). It does not test `PTYPE`: run alone it has its effect whatever `PTYPE` holds, the model's choice
(assumption 35). -/
def execEsp3Erp1 (s : State) : Answer :=
  execErp1Decode (s.setFields (selectData .erp1 s.fields))

/-- `ESP3.ERP2` (43_esp3_frame.md R163). It does not test `PTYPE`: run alone it has its effect whatever `PTYPE` holds, the model's choice
(assumption 35). -/
def execEsp3Erp2 (s : State) : Answer :=
  execErp2Decode (s.setFields (selectData .erp2 s.fields))

/-- `ESP3.OTHER`: the opaque result (43_esp3_frame.md R164). It tests neither its operand nor `PTYPE`: run alone it has its effect whatever
they hold, equal or not, `0x01` and `0x0A` included, the model's choice (assumption 35). -/
def execEsp3Other (_ptype : Byte) (s : State) : Answer :=
  .next (s.setFields (opaqueResult .ptypeUnknown { selectData .other s.fields with crcsubOk := none }))

/-- `OPT_TABLE[PTYPE]` (30_encoding.md R101). -/
def optLookup : List (Byte × Nat) → Byte → Option Nat
  | [], _ => none
  | r :: rs, p => if r.1 = p then some r.2 else optLookup rs p

/-- `DBM` of an optional region (43_esp3_frame.md R167). -/
def dbmOf (table : List (Byte × Nat)) (ptype : Byte) (opt : Bytes) : Option Int :=
  match optLookup table ptype with
  | none => none
  | some k => if k < opt.length then some (-((byteAt opt k).toNat : Int)) else none

/-- `ESP3.OPT`: the optional region and the signal strength; with `OLEN = 0` the region is empty and `DBM = none`
(43_esp3_frame.md R166 to R168). -/
def execEsp3Opt (s : State) : Answer :=
  let g := { s.fields with opt := ⟨6 + s.fields.dlen.toNat, s.fields.olen.toNat⟩ }
  .next (s.setFields { g with dbm := dbmOf s.cfg.optTable g.ptype (optBytes g) })

/-- `ESP3.CRC8D` (43_esp3_frame.md R169). -/
def execEsp3Crc8d (s : State) : Answer :=
  let fr := s.fields.frame
  let n := s.fields.dlen.toNat + s.fields.olen.toNat
  let ok := crc8Ok s.cfg.crc8Table (frameByte fr (6 + n)) (frameBytes fr 6 n)
  let f := if ok then s.fields else degrade .dataCrc s.fields
  .next (s.setFields { f with crc8d := frameByte fr (6 + n), crc8dOk := ok })

/-- `ESP3.MERGE`: `CRC`, then the two events (43_esp3_frame.md R170, 60_exceptions.md R270 to R272). -/
def execEsp3Merge (s : State) : Answer :=
  let f := { s.fields with crc := crcAll s.fields }
  .next (emit (s.setFields f) f)

/-- The radio decoder that the packet type selects (43_esp3_frame.md R160 step 4). -/
def esp3Row (ptype : Byte) (s : State) : Answer :=
  if ptype = ptypeErp2 then execEsp3Erp2 s
  else if ptype = ptypeErp1 then execEsp3Erp1 s
  else execEsp3Other ptype s

/-- `ESP3.DECODE`: the seven steps in their order (43_esp3_frame.md R160). -/
def execEsp3Decode (s : State) : Answer :=
  andThen (execEsp3Hdr s) fun s2 =>
  andThen (execEsp3Crc8h s2) fun s3 =>
  andThen (esp3Row s3.fields.ptype s3) fun s4 =>
  andThen (if s4.fields.olen ≠ 0 then execEsp3Opt s4
           else .next (s4.setFields { s4.fields with opt := ⟨6 + s4.fields.dlen.toNat, 0⟩, dbm := none })) fun s5 =>
  andThen (execEsp3Crc8d s5) execEsp3Merge

/-- `DecodeFrame(frame, REG)` as a function: the record of a complete frame under given parameters and registry, none for a byte sequence
that does not meet the precondition of R160 (10_state.md R39, 92_eei_decisions.md D30; assumption 20). -/
def decodeFrame (cfg : Config) (reg : List RegDevice) (frame : Bytes) : Option Telegram :=
  if frameOk cfg frame then
    match execEsp3Decode { State.reset with cfg := cfg, reg := reg, fields := { blankTelegram with frame := frame } } with
    | .next t => some t.fields
    | _ => none
  else none

end Sys2Proof.Machine
end

