-- ==== Sys2Proof/Machine/Rsm.lean ====
section
/-! DEFINITION. The Reassembler (spec/42_reassembler.md). An operation that the key of 30_encoding.md R84 does not select is not run: the
state stays as it is (assumption 7). So it does while no chunk is offered: "While no chunk arrives nothing happens and the state holds
indefinitely" (60_exceptions.md R283). -/

namespace Sys2Proof.Machine

/-- The chunk offered at `CHUNK_IN`, if the next input is one (10_state.md R34). -/
def offeredChunk (s : State) : Option Bytes :=
  match s.input with
  | .chunk c :: _ => some c
  | _ => none

/-- Take the next input. -/
def takeInput (s : State) : State := { s with input := s.input.tail }

/-- Append a chunk to the frame-so-far at an offset: `MemWrite(at, n, c); FLEN <- at + n`, the count saturating
(42_reassembler.md R142, R143; 10_state.md R22, R23). -/
def storeChunk (start : Nat) (c : Bytes) (s : State) : State :=
  { s with
    mem := memWriteBytes s.cfg.bufCap s.mem start c
    flen := min (start + c.length) flenMax
    rsm := .accumulating }

/-- `RSM.NOP`, selected by an empty chunk (42_reassembler.md R147). -/
def execRsmNop (s : State) : Answer :=
  match offeredChunk s with
  | none => .next s
  | some c => if c = [] then .next (takeInput s) else .next s

/-- `RSM.START`, selected in `Idle` by a first byte `0x55` (42_reassembler.md R142). -/
def execRsmStart (s : State) : Answer :=
  match offeredChunk s with
  | none => .next s
  | some c => if s.rsm = .idle ∧ c.head? = some syncMarker then .next (storeChunk 0 c (takeInput s)) else .next s

/-- `RSM.DROP`, selected in `Idle` by any other first byte (42_reassembler.md R144). -/
def execRsmDrop (first : Byte) (s : State) : Answer :=
  match offeredChunk s with
  | none => .next s
  | some c =>
    if s.rsm = .idle ∧ c.head? = some first ∧ first ≠ syncMarker then .next (pulse (takeInput s) (.drop c.length))
    else .next s

/-- `RSM.APPEND`, selected in `Accumulating` by a non-empty chunk (42_reassembler.md R143). -/
def execRsmAppend (s : State) : Answer :=
  match offeredChunk s with
  | none => .next s
  | some c => if s.rsm = .accumulating ∧ c ≠ [] then .next (storeChunk s.flen c (takeInput s)) else .next s

/-- `RSM.WAIT`: nothing (42_reassembler.md R148). -/
def execRsmWait (s : State) : Answer := .next s

/-- Back to `Idle` (42_reassembler.md R145, R146). -/
def toIdle (s : State) : State := { s with rsm := .idle, flen := 0 }

/-- Hand a complete frame to the frame decoder, with the field registers blank but for `FRAME`; after its record is emitted they are
dead (42_reassembler.md R145, 10_state.md R25). -/
def handOff (frame : Bytes) (s : State) : Answer :=
  andThen (execEsp3Decode (s.setFields { blankTelegram with frame := frame })) fun t =>
    .next (toIdle (t.setFields blankTelegram))

/-- A comparison of `FLEN` with `VLEN`, which is made when `FLEN > 6`: "While `FLEN <= 6` the lengths are not read at all"
(42_reassembler.md R141, R148). -/
def withVlen (s : State) (short : Answer) (k : Nat → Answer) : Answer :=
  if 6 < s.flen then
    match vlen s with
    | none => .fault (.frameSpace 0)
    | some v => k v
  else short

/-- `RSM.EMIT`, selected by `FLEN > 6` and `FLEN = VLEN` (42_reassembler.md R145). -/
def execRsmEmit (s : State) : Answer :=
  withVlen s (.next s) fun v =>
    if s.flen = v then
      match memReadBytes s.mem 0 v with
      | none => .fault (.frameSpace 0)
      | some frame => handOff frame s
    else .next s

/-- `RSM.OVERRUN`, selected by `FLEN > 6` and `FLEN > VLEN`; the policy is `discard`, the only one specified
(42_reassembler.md R146). -/
def execRsmOverrun (s : State) : Answer :=
  withVlen s (.next s) fun v =>
    if v < s.flen then
      match s.cfg.overrunPolicy with
      | .discard => .next (toIdle (pulse s (.overrun s.flen v)))
    else .next s

/-- The length test after every append (42_reassembler.md R141). -/
def lengthTest (s : State) : Answer :=
  withVlen s (execRsmWait s) fun v =>
    if s.flen = v then execRsmEmit s
    else if v < s.flen then execRsmOverrun s
    else execRsmWait s

/-- `RSM.STEP`: one chunk (42_reassembler.md R141). -/
def execRsmStep (s : State) : Answer :=
  match offeredChunk s with
  | none => .next s
  | some c =>
    match c.head?, s.rsm with
    | none, _ => execRsmNop s
    | some b, .idle => if b = syncMarker then andThen (execRsmStart s) lengthTest else execRsmDrop b s
    | some _, .accumulating => andThen (execRsmAppend s) lengthTest

end Sys2Proof.Machine
end

