-- ==== Sys2Proof/Machine/Dispatch.lean ====
section
/-! DEFINITION. exec: one arm for each constructor of Instr, each one call of that operation's meaning. -/

namespace Sys2Proof.Machine

def exec (i : Instr) (s : State) : Host.Outcome State Fault Refusal :=
  match i with
  | .crc8Compute bytes => Sys2Proof.Machine.execCrc8Compute bytes s
  | .crc8Verify candidate bytes => Sys2Proof.Machine.execCrc8Verify candidate bytes s
  | .bfBit b idx => Sys2Proof.Machine.execBfBit b idx s
  | .bfField b hi lo => Sys2Proof.Machine.execBfField b hi lo s
  | .bfCat a wa b wb => Sys2Proof.Machine.execBfCat a wa b wb s
  | .bfU16 bytes offset => Sys2Proof.Machine.execBfU16 bytes offset s
  | .bfSlice bytes start stop => Sys2Proof.Machine.execBfSlice bytes start stop s
  | .bfIdnorm id => Sys2Proof.Machine.execBfIdnorm id s
  | .rsmStep => Sys2Proof.Machine.execRsmStep s
  | .rsmNop => Sys2Proof.Machine.execRsmNop s
  | .rsmStart => Sys2Proof.Machine.execRsmStart s
  | .rsmDrop first => Sys2Proof.Machine.execRsmDrop first s
  | .rsmAppend => Sys2Proof.Machine.execRsmAppend s
  | .rsmWait => Sys2Proof.Machine.execRsmWait s
  | .rsmEmit => Sys2Proof.Machine.execRsmEmit s
  | .rsmOverrun => Sys2Proof.Machine.execRsmOverrun s
  | .esp3Decode => Sys2Proof.Machine.execEsp3Decode s
  | .esp3Hdr => Sys2Proof.Machine.execEsp3Hdr s
  | .esp3Crc8h => Sys2Proof.Machine.execEsp3Crc8h s
  | .esp3Erp1 => Sys2Proof.Machine.execEsp3Erp1 s
  | .esp3Erp2 => Sys2Proof.Machine.execEsp3Erp2 s
  | .esp3Other ptype => Sys2Proof.Machine.execEsp3Other ptype s
  | .esp3Opt => Sys2Proof.Machine.execEsp3Opt s
  | .esp3Crc8d => Sys2Proof.Machine.execEsp3Crc8d s
  | .esp3Merge => Sys2Proof.Machine.execEsp3Merge s
  | .erp2Decode => Sys2Proof.Machine.execErp2Decode s
  | .erp2Subcrc => Sys2Proof.Machine.execErp2Subcrc s
  | .erp2Hdrbyte => Sys2Proof.Machine.execErp2Hdrbyte s
  | .erp2Ac0 eha tt => Sys2Proof.Machine.execErp2Ac0 eha tt s
  | .erp2Ac1 eha tt => Sys2Proof.Machine.execErp2Ac1 eha tt s
  | .erp2Ac2 eha tt => Sys2Proof.Machine.execErp2Ac2 eha tt s
  | .erp2Ac3 eha tt => Sys2Proof.Machine.execErp2Ac3 eha tt s
  | .erp2Acrsv ac eha tt => Sys2Proof.Machine.execErp2Acrsv ac eha tt s
  | .erp2Eha ac tt => Sys2Proof.Machine.execErp2Eha ac tt s
  | .erp2Tt0 ac eha => Sys2Proof.Machine.execErp2Tt0 ac eha s
  | .erp2Tt1 ac eha => Sys2Proof.Machine.execErp2Tt1 ac eha s
  | .erp2Tt2 ac eha => Sys2Proof.Machine.execErp2Tt2 ac eha s
  | .erp2Tt3 ac eha => Sys2Proof.Machine.execErp2Tt3 ac eha s
  | .erp2Tt4 ac eha => Sys2Proof.Machine.execErp2Tt4 ac eha s
  | .erp2Tt5 ac eha => Sys2Proof.Machine.execErp2Tt5 ac eha s
  | .erp2Tt6 ac eha => Sys2Proof.Machine.execErp2Tt6 ac eha s
  | .erp2Tt7 ac eha => Sys2Proof.Machine.execErp2Tt7 ac eha s
  | .erp2Tt8 ac eha => Sys2Proof.Machine.execErp2Tt8 ac eha s
  | .erp2Tt9 ac eha => Sys2Proof.Machine.execErp2Tt9 ac eha s
  | .erp2Tt10 ac eha => Sys2Proof.Machine.execErp2Tt10 ac eha s
  | .erp2Ttrsv11 ac eha => Sys2Proof.Machine.execErp2Ttrsv11 ac eha s
  | .erp2Ttrsv12 ac eha => Sys2Proof.Machine.execErp2Ttrsv12 ac eha s
  | .erp2Ttrsv13 ac eha => Sys2Proof.Machine.execErp2Ttrsv13 ac eha s
  | .erp2Ttrsv14 ac eha => Sys2Proof.Machine.execErp2Ttrsv14 ac eha s
  | .erp2Ttext ac eha => Sys2Proof.Machine.execErp2Ttext ac eha s
  | .erp2Short => Sys2Proof.Machine.execErp2Short s
  | .erp1Decode => Sys2Proof.Machine.execErp1Decode s
  | .erp1Short => Sys2Proof.Machine.execErp1Short s
  | .erp1Fields => Sys2Proof.Machine.execErp1Fields s
  | .erp1Ti4bs => Sys2Proof.Machine.execErp1Ti4bs s
  | .erp1Tiute => Sys2Proof.Machine.execErp1Tiute s
  | .erp1Ti1bs => Sys2Proof.Machine.execErp1Ti1bs s
  | .erp1Tinone rorg => Sys2Proof.Machine.execErp1Tinone rorg s
  | .eepDecode e payload => Sys2Proof.Machine.execEepDecode e payload s
  | .eepIsknown e => Sys2Proof.Machine.execEepIsknown e s
  | .eepD50001 => Sys2Proof.Machine.execEepD50001 s
  | .eepA50205 => Sys2Proof.Machine.execEepA50205 s
  | .eepUnknown code => Sys2Proof.Machine.execEepUnknown code s

end Sys2Proof.Machine
end

