-- ==== Sys2Proof/Machine/Port.lean ====
section
/-! DEFINITION. What surrounds the chunk step: the pure-function ports (spec/10_state.md R39), the host's registry interfaces
(spec/60_exceptions.md R280, R281), reset (spec/10_state.md R42), and the placing of a table word on the wire. -/

namespace Sys2Proof.Machine

/-- The operations that have a pure-function port: the CRC8 engine, the dispatch and the bit-field extractors (10_state.md R39). -/
def isPort : Instr → Bool
  | .crc8Compute _ => true
  | .crc8Verify _ _ => true
  | .bfBit _ _ => true
  | .bfField _ _ _ => true
  | .bfCat _ _ _ _ => true
  | .bfU16 _ _ => true
  | .bfSlice _ _ _ => true
  | .bfIdnorm _ => true
  | .eepDecode _ _ => true
  | .eepIsknown _ => true
  | _ => false

/-- A call of a function port: the operation runs, its answer stands at the port, and the field registers are as before, since the ports
"have no state" (10_state.md R39). -/
def portStep (i : Instr) (s : State) : Answer :=
  if isPort i then andThen (exec i s) fun t => .next (t.setFields s.fields) else .refused .notAPort

/-- Write a registry record and answer it to the caller; that the answer is the record is the model's choice (assumption 31). -/
def storeDevice (d : RegDevice) (s : State) : State :=
  replyHost { s with reg := regInsert d s.reg } (.stored d)

/-- The teach interface; an error leaves the registry unchanged (60_exceptions.md R280). -/
def teach (req : TeachReq) (s : State) : State :=
  match normId req.id with
  | none => replyHost s (.invalid .id)
  | some k =>
    match teachEep req.eep with
    | none => replyHost s (.invalid .eep)
    | some e =>
      if textFits req.name then
        if textFits req.manufacturer then storeDevice ⟨k, e, req.name, req.manufacturer, true⟩ s
        else replyHost s (.invalid .manufacturer)
      else replyHost s (.invalid .name)

/-- A name update (60_exceptions.md R280; assumption 13). -/
def rename (id : Text) (name : Option Text) (s : State) : State :=
  match normId id with
  | none => replyHost s (.invalid .id)
  | some k =>
    if textFits name then
      match regLookup s.reg k with
      | none => replyHost s (.invalid .unknownId)
      | some d => storeDevice { d with name := name } s
    else replyHost s (.invalid .name)

/-- Get-by-id: `get(id) = REG(NormID(id))` (60_exceptions.md R281). -/
def getDevice (id : Text) (s : State) : State :=
  match normId id with
  | none => replyHost s (.invalid .id)
  | some k => replyHost s (.found (regLookup s.reg k))

/-- Get-all: a snapshot of the registry (60_exceptions.md R281). -/
def getAll (s : State) : State := replyHost s (.all s.reg)

/-- A reset: every field at its value after reset; the parameters are constant, and what the host has yet to deliver it still delivers
(10_state.md R42, 70_reset_and_hazards.md R290; assumption 12). The count of free values goes on, so that none is taken twice. -/
def resetStep (s : State) : State := { State.reset with cfg := s.cfg, input := s.input, freeCount := s.freeCount }

/-- A complete frame with no optional region and right CRCs around a data region (30_encoding.md R81). -/
def mkFrame (cfg : Config) (ptype : Byte) (data : Bytes) : Bytes :=
  let hi := BitVec.ofNat 8 (data.length / 256)
  let lo := BitVec.ofNat 8 data.length
  let header := (match cfg.lenOrder with | .big => [hi, lo] | .little => [lo, hi]) ++ [0x00, ptype]
  [syncMarker] ++ (header ++ ([crc8 cfg.crc8Table header] ++ (data ++ [crc8 cfg.crc8Table data])))

/-- An ERP1 data region with this RORG, `n` zero bytes of Data_DL, originator 0 and Status 0 (30_encoding.md R85). -/
def sampleErp1 (rorg : Byte) (n : Nat) : Bytes := [rorg] ++ (List.replicate n 0x00 ++ [0x00, 0x00, 0x00, 0x00, 0x00])

/-- An ERP2 data region with this header byte, long enough for every addressing, with its sub-frame CRC (30_encoding.md R88). -/
def sampleErp2 (cfg : Config) (h : Byte) : Bytes :=
  let body := [h] ++ List.replicate 10 0x00
  body ++ [crc8 cfg.crc8Table body]

/-- The Data_DL length that lets the Teach-In decoder of a RORG read it (30_encoding.md R85). -/
def sampleLength (rorg : Byte) : Nat := if rorg = rorg4bs then 4 else if rorg = rorgUte then 7 else 1

/-- Offer a chunk as the next input, taken in `Idle`. -/
def offer (c : Bytes) (s : State) : State := { s with rsm := .idle, flen := 0, input := .chunk c :: s.input }

/-- Place a word of the table where the next step reads it (assumption 16): as the first byte of a chunk, or inside a complete frame as
the packet type, the RORG byte or the ERP2 header byte, or as the profile code of the frame's originator in the registry. -/
def placeWord (nbits w : Nat) (s : State) : State :=
  let b : Byte := BitVec.ofNat 8 w
  match tableFormat nbits w with
  | some .chunk => offer [b] s
  | some .esp3 =>
    offer (mkFrame s.cfg b
      (if b = ptypeErp1 then sampleErp1 0x00 1 else if b = ptypeErp2 then sampleErp2 s.cfg 0x00 else [])) s
  | some .erp1 => offer (mkFrame s.cfg ptypeErp1 (sampleErp1 b (sampleLength b))) s
  | some .erp2Ac => offer (mkFrame s.cfg ptypeErp2 (sampleErp2 s.cfg b)) s
  | some .erp2Eha => offer (mkFrame s.cfg ptypeErp2 (sampleErp2 s.cfg b)) s
  | some .erp2Tt => offer (mkFrame s.cfg ptypeErp2 (sampleErp2 s.cfg b)) s
  | some .eep =>
    let e : Eep := BitVec.ofNat 24 w
    let n := match profileFind s.cfg.profileTable e with | none => 1 | some row => row.len
    offer (mkFrame s.cfg ptypeErp1 (sampleErp1 0x00 n)) { s with reg := regInsert ⟨0, e, none, none, true⟩ s.reg }
  | _ => s

end Sys2Proof.Machine
end

