-- ==== Sys2Proof/Machine/Step.lean ====
section
/-! DEFINITION. The step of the machine: what has been delivered takes effect in order, one input a step (spec/20_memory.md R59). -/

namespace Sys2Proof.Machine

/-- One step. A chunk is one `RSM.STEP` (10_state.md R20); a call of a function port or of a host interface, and a reset, take effect
between chunk steps (20_memory.md R59); while nothing arrives "the state holds indefinitely" (60_exceptions.md R283). -/
def step (s : State) : Host.Outcome State Fault Refusal :=
  match s.input with
  | [] => .next s
  | .chunk _ :: _ => exec .rsmStep s
  | .port i :: _ => portStep i (takeInput s)
  | .teach req :: _ => .next (teach req (takeInput s))
  | .rename id name :: _ => .next (rename id name (takeInput s))
  | .get id :: _ => .next (getDevice id (takeInput s))
  | .getAll :: _ => .next (getAll (takeInput s))
  | .reset :: _ => .next (resetStep (takeInput s))

/-- The state with a word of the table placed where the next step reads it (assumption 16). -/
def State.withFetchWord (s : State) (nbits w : Nat) : State := placeWord nbits w s

end Sys2Proof.Machine
end

