-- ==== Sys2Proof/Safety.lean ====
section
/-! DEFINITION. The terms in which statements speak of TRB: the model's invariant, the reading of the frame space, the cutting of a
stream into chunks, and what a completed frame leaves. -/

namespace Sys2Proof.Machine

/-- The parameters have the shapes that 00_scope.md R9 and 20_memory.md R57 give them: 256, 8 and 16 table entries, a buffer that holds
every frame, one row for each profile code, "at least these two rows" (46_eep_dispatch.md R221). -/
def cfgWf (c : Config) : Bool :=
  decide (c.crc8Table.length = 256) && decide (c.acTable.length = 8) && decide (c.ttTable.length = 16) &&
  decide (65797 ≤ c.bufCap) && decide ((c.profileTable.map ProfileRow.code).Nodup) &&
  decide (⟨0xD50001, 1, .contactSwitch⟩ ∈ c.profileTable) && decide (⟨0xA50205, 4, .temperature⟩ ∈ c.profileTable)

/-- Every listed offset lies in the frame space (10_state.md R22, R32). -/
def memBelow (cap : Nat) (m : Mem) : Prop := ∀ a b, memRead m a = some b → a < cap

/-- The Reassembler's part of the invariant (10_state.md R23): in `Idle` nothing is buffered; in `Accumulating` at least the sync byte
is, every offset below `FLEN` holds a byte, and the frame-so-far is shorter than the frame it declares. -/
def RsmOk (s : State) : Prop :=
  match s.rsm with
  | .idle => s.flen = 0
  | .accumulating =>
    1 ≤ s.flen ∧ memRead s.mem 0 = some syncMarker ∧ (∀ a, a < s.flen → (memRead s.mem a).isSome = true) ∧
    (6 < s.flen → ∃ v, vlen s = some v ∧ s.flen < v)

/-- The model's invariant between inputs. -/
structure Inv (s : State) : Prop where
  cfg : cfgWf s.cfg = true
  mem : Mem.wf s.mem = true
  below : memBelow s.cfg.bufCap s.mem
  reg : regWf s.reg = true
  fields : s.fields = blankTelegram
  rsm : RsmOk s

/-- The inputs that a step can stop at: a function-port call that the host may not make, or whose text has no meaning. Every
other input takes effect. -/
def Input.harmless : Input → Bool
  | .port _ => false
  | _ => true

/-- A byte sequence that is one well-formed frame: "`F[0] = 0x55`, `len(F) = 6 + U16(F,1) + F[3] + 1`" (42_reassembler.md R149). -/
def WellFormedFrame (c : Config) (frame : Bytes) : Prop :=
  frame.head? = some syncMarker ∧ frame.length = 6 + bfU16 c.lenOrder frame 1 + (byteAt frame 3).toNat + 1

/-- A byte sequence read as a number, first byte most significant (20_memory.md R51). -/
def bigEndian (bytes : Bytes) : Nat := Nat.ofDigits 256 (bytes.map BitVec.toNat).reverse

/-- The profile code of a frame: the one a Teach-In payload yields, else the registry's (44_erp2.md R190). -/
def resolvedEep (ti : Option TeachIn) (found : Option RegDevice) : Option Eep :=
  match ti.bind TeachIn.eep with
  | some e => some e
  | none => found.map RegDevice.eep

/-- The value map of a teach-in report, written out: `eep`, `manuf`, and for UTE `dir`, `noresp`, `result`, `cmd`, `channels`
(46_eep_dispatch.md R229); a field that is `none` has no entry (assumption 30). -/
def teachInMap (x : TeachIn) : List (FieldName × Val) :=
  x.eep.toList.map (fun e => (.eep, .raw e.toNat)) ++ x.manuf.toList.map (fun m => (.manuf, .raw m.toNat)) ++
  x.ute.toList.flatMap (fun u => [(.dir, .raw u.dir), (.noresp, .raw u.noresp), (.result, .raw u.result), (.cmd, .raw u.cmd),
    (.channels, .raw u.channels)])

/-- The Report and the reason of a frame: the teach-in report, or what the dispatch returns (44_erp2.md R192). -/
def frameReport (cfg : Config) (ti : Option TeachIn) (found : Option RegDevice) (payload : Bytes) : Report × Option Reason :=
  match ti with
  | some x => (⟨teachInMap x, none, true, payload⟩, none)
  | none => dispatch cfg (resolvedEep ti found) payload

/-- The reasons of a frame after one more, if there is one (60_exceptions.md R261). -/
def withReason (why : Option Reason) (rs : List Reason) : List Reason :=
  match why with
  | none => rs
  | some r => if r ∈ rs then rs else rs ++ [r]

/-- The record in register `DEV`: the registry's, or a transient one (44_erp2.md R189). -/
def frameDevice (id : Id48) (ti : Option TeachIn) (found : Option RegDevice) : Device :=
  match found with
  | some d => ⟨d.id, some d.eep, d.name, d.manufacturer.map .text, d.learned⟩
  | none => ⟨id, resolvedEep ti found, none, (ti.bind TeachIn.manuf).map .id, false⟩

/-- A byte sequence cut into consecutive non-empty chunks (42_reassembler.md R149). -/
def IsCut (frame : Bytes) (chunks : List Bytes) : Prop := chunks.flatten = frame ∧ ∀ c ∈ chunks, c ≠ []

/-- The two transactions of a completed frame (60_exceptions.md R270, R272). -/
def eventsOf (r : Telegram) : List TelEvent := [⟨category r, r⟩, ⟨.data, r⟩]

/-- What a chunk step may change: the Reassembler's state, the buffer, the registers and the outputs; not the parameters, the registry,
a function port or a host interface (10_state.md R31, R33). -/
def SameSurroundings (s t : State) : Prop :=
  t.cfg = s.cfg ∧ t.reg = s.reg ∧ t.fnOut = s.fnOut ∧ t.hostOut = s.hostOut

end Sys2Proof.Machine
end

