-- ==== Sys2Proof/Certificates/Slice0/Obligations.lean ====
section
/-! DEFINITION. The statements about TRB that are to be proved, in the order of OBLIGATIONS.json. A statement that an operation answers
`.next { s with … }` is at once its result, its frame (every field of State that the update does not name is as in `s`) and its
completion. -/

section

open Sys2Proof Sys2Proof.Machine

/-! The CRC8 engine. -/

/-- `CRC8.COMPUTE` (40_crc8.md R122): initial value 0, one table look-up for each byte, and the corner cases of the rule. The initial
value goes with the table, which the spec takes from general knowledge. -/
def Obligations.Crc8ComputeIsTheTableLoop : Prop :=
  ∀ s : State, ∃ crc : Bytes → Byte,
    crc [] = 0 ∧
    (∀ bytes b, crc (bytes ++ [b]) = s.cfg.crc8Table.getD (crc bytes ^^^ b).toNat 0) ∧
    (∀ bytes, exec (.crc8Compute bytes) s = .next { s with fnOut := some (.byte (crc bytes)) }) ∧
    (s.cfg.crc8Table.getD 0 0 = 0 →
      (∀ n, crc (List.replicate n 0) = 0) ∧ ∀ bytes, crc (bytes ++ [crc bytes]) = 0) ∧
    (s.cfg.crc8Table = configDefault.crc8Table → crc [0x00, 0x07, 0x07, 0x01] = 0x7A)

/-- `CRC8.VERIFY` (40_crc8.md R123) and the property that holds of every table (R124). -/
def Obligations.Crc8VerifyAcceptsWhatComputeGives : Prop :=
  ∀ (s : State) (k : Byte) (bytes : Bytes),
    exec (.crc8Verify k bytes) s = .next { s with fnOut := some (.bool (decide (crc8 s.cfg.crc8Table bytes = k))) } ∧
    ∃ c, exec (.crc8Compute bytes) s = .next { s with fnOut := some (.byte c) } ∧
      exec (.crc8Verify c bytes) s = .next { s with fnOut := some (.bool true) }

/-! The bit-field extractors. -/

/-- `BF.BIT` and `BF.FIELD` (41_bitfield.md R131, R132): one bit, the bits `hi` to `lo`, and both corner cases of the rule. -/
def Obligations.BfBitAndFieldReadBits : Prop :=
  ∀ (s : State) (b : Byte) (hi lo : Fin 8),
    exec (.bfBit b hi) s = .next { s with fnOut := some (.num (if b.getLsbD hi.val then 1 else 0)) } ∧
    (lo ≤ hi →
      ∃ n : Nat, exec (.bfField b hi lo) s = .next { s with fnOut := some (.num n) } ∧
        n < 2 ^ (hi.val - lo.val + 1) ∧
        (∀ k, k < hi.val - lo.val + 1 → n.testBit k = b.getLsbD (lo.val + k)) ∧
        (hi = 7 → lo = 0 → n = b.toNat) ∧
        (hi = lo → exec (.bfBit b lo) s = .next { s with fnOut := some (.num n) }))

/-- `BF.CAT` (41_bitfield.md R133): the first operand is the more significant, and both can be read back; `BF.U16` (R134): two bytes in
both byte orders. -/
def Obligations.BfCatAndU16PutNumbersTogether : Prop :=
  ∀ s : State,
    (∀ a wa b wb : Nat, a < 2 ^ wa → b < 2 ^ wb →
      ∃ n : Nat, exec (.bfCat a wa b wb) s = .next { s with fnOut := some (.num n) } ∧
        n = a * 2 ^ wb + b ∧ n < 2 ^ (wa + wb) ∧ n / 2 ^ wb = a ∧ n % 2 ^ wb = b) ∧
    (∀ (before after : Bytes) (x y : Byte),
      exec (.bfU16 (before ++ x :: y :: after) before.length) s =
        .next { s with fnOut := some (.num
          (match s.cfg.lenOrder with
           | .big => x.toNat * 256 + y.toNat
           | .little => y.toNat * 256 + x.toNat)) })

/-- `BF.SLICE` (41_bitfield.md R135): every slice `B[a..b)` with `a <= b <= len(B)` has this form. -/
def Obligations.BfSliceCutsTheMiddle : Prop :=
  ∀ (s : State) (before middle after : Bytes),
    exec (.bfSlice (before ++ (middle ++ after)) before.length (before.length + middle.length)) s =
      .next { s with fnOut := some (.bytes middle) }

/-- `BF.IDNORM` (41_bitfield.md R136): the value, first byte most significant, and leading zero bytes make no difference. -/
def Obligations.BfIdnormIsTheBigEndianValue : Prop :=
  ∀ (s : State) (id : Bytes), id.length = 3 ∨ id.length = 4 ∨ id.length = 6 →
    ∃ i : Id48, exec (.bfIdnorm id) s = .next { s with fnOut := some (.id i) } ∧
      i.toNat = Nat.ofDigits 256 (id.map BitVec.toNat).reverse ∧
      ∀ n, (List.replicate n (0 : Byte) ++ id).length = 4 ∨ (List.replicate n (0 : Byte) ++ id).length = 6 →
        exec (.bfIdnorm (List.replicate n 0 ++ id)) s = .next { s with fnOut := some (.id i) }

/-! The Reassembler. -/

/-- `VLEN` is what the buffer's bytes 1 to 3 declare, and lies between 7 and 65797 (10_state.md R24, 30_encoding.md R82). -/
def Obligations.VlenIsTheDeclaredLength : Prop :=
  ∀ (s : State) (b0 b1 b2 b3 : Byte),
    memRead s.mem 0 = some b0 → memRead s.mem 1 = some b1 → memRead s.mem 2 = some b2 → memRead s.mem 3 = some b3 →
    ∃ v, vlen s = some v ∧ 7 ≤ v ∧ v ≤ 65797 ∧
      v = 6 + (match s.cfg.lenOrder with
               | .big => b1.toNat * 256 + b2.toNat
               | .little => b2.toNat * 256 + b1.toNat) + b3.toNat + 1

/-- `RSM.NOP` (42_reassembler.md R147), alone and in the step, in either state: the empty chunk is taken and nothing else changes. -/
def Obligations.RsmNopTakesTheEmptyChunk : Prop :=
  ∀ (s : State) (rest : List Input), s.input = .chunk [] :: rest →
    exec .rsmNop s = .next { s with input := rest } ∧ exec .rsmStep s = .next { s with input := rest }

/-- `RSM.START` (42_reassembler.md R142): the whole chunk becomes the frame-so-far; every offset outside it reads as before. The count
saturates at 65798 and nothing is stored at or beyond `BUF_CAP` (10_state.md R22, R23). -/
def Obligations.RsmStartBuffersTheWholeChunk : Prop :=
  ∀ (s : State) (chunk : Bytes) (rest : List Input),
    s.input = .chunk chunk :: rest → s.rsm = .idle → chunk.head? = some 0x55 →
    ∃ m, exec .rsmStart s =
        .next { s with input := rest, rsm := .accumulating, flen := min chunk.length 65798, mem := m } ∧
      ∀ a, memRead m a = if a < chunk.length ∧ a < s.cfg.bufCap then chunk[a]? else memRead s.mem a

/-- `RSM.APPEND` (42_reassembler.md R143): the chunk, whatever its first byte, goes to the offsets from `FLEN` on; every offset outside
it reads as before. -/
def Obligations.RsmAppendStoresAtFlen : Prop :=
  ∀ (s : State) (chunk : Bytes) (rest : List Input),
    s.input = .chunk chunk :: rest → s.rsm = .accumulating → chunk ≠ [] →
    ∃ m, exec .rsmAppend s = .next { s with input := rest, flen := min (s.flen + chunk.length) 65798, mem := m } ∧
      ∀ a, memRead m a =
        if s.flen ≤ a ∧ a < s.flen + chunk.length ∧ a < s.cfg.bufCap then chunk[a - s.flen]? else memRead s.mem a

/-- `RSM.DROP` (42_reassembler.md R144), alone and in the step: nothing but the pulse `drop(n)`. -/
def Obligations.RsmDropDiscardsTheWholeChunk : Prop :=
  ∀ (s : State) (b : Byte) (c : Bytes) (rest : List Input),
    s.input = .chunk (b :: c) :: rest → s.rsm = .idle → b ≠ 0x55 →
    exec (.rsmDrop b) s = .next { s with input := rest, diagOut := s.diagOut ++ [.drop (c.length + 1)] } ∧
    exec .rsmStep s = .next { s with input := rest, diagOut := s.diagOut ++ [.drop (c.length + 1)] }

/-- `RSM.WAIT` (42_reassembler.md R148): nothing changes, and the step that selects it leaves what the append left. -/
def Obligations.RsmWaitChangesNothing : Prop :=
  ∀ s : State, exec .rsmWait s = .next s ∧
    ∀ (b : Byte) (c : Bytes) (rest : List Input) (t : State), s.input = .chunk (b :: c) :: rest → b = 0x55 ∨ s.rsm = .accumulating →
      exec (if s.rsm = .idle then .rsmStart else .rsmAppend) s = .next t →
      t.flen ≤ 6 ∨ (∃ v, vlen t = some v ∧ t.flen < v) → exec .rsmStep s = .next t

/-- `RSM.EMIT` (42_reassembler.md R145): the buffer's first `VLEN` bytes are decoded as a function of the parameters, the registry and
these bytes alone, the record leaves on both events, at most one id has been looked up, and the Reassembler is idle. That the field
registers are blank again is the model's choice (assumption 4). -/
def Obligations.RsmEmitHandsTheFrameOver : Prop :=
  ∀ (s : State) (v : Nat) (frame : Bytes),
    vlen s = some v → s.flen = v → memReadBytes s.mem 0 v = some frame → frame.head? = some 0x55 →
    ∃ r : Telegram, decodeFrame s.cfg s.reg frame = some r ∧ r.frame = frame ∧
      exec .rsmEmit s =
        .next { s with
          rsm := .idle, flen := 0, fields := blankTelegram, regQ := s.regQ ++ r.oid.toList, telOut := s.telOut ++ eventsOf r }

/-- `RSM.OVERRUN` under the policy `discard` (42_reassembler.md R146). -/
def Obligations.RsmOverrunDiscardsTheBuffer : Prop :=
  ∀ (s : State) (v : Nat), vlen s = some v → 6 < s.flen → v < s.flen →
    exec .rsmOverrun s = .next { s with rsm := .idle, flen := 0, diagOut := s.diagOut ++ [.overrun s.flen v] }

/-- A step on a chunk is `RSM.STEP`, and that runs the operation that the chunk's key selects and, after an append, the one that the
length comparison selects (30_encoding.md R80, R84, 42_reassembler.md R141). -/
def Obligations.StepRunsTheDecodedOperations : Prop :=
  ∀ (s : State) (c : Bytes) (rest : List Input), s.input = .chunk c :: rest →
    (s.rsm = .idle → decode .chunk c = .ok (decodeChunk s.rsm c.head?)) ∧
    step s = exec .rsmStep s ∧
    exec .rsmStep s =
      andThen (exec (decodeChunk s.rsm c.head?) s) fun t =>
        if decodeChunk s.rsm c.head? = .rsmStart ∨ decodeChunk s.rsm c.head? = .rsmAppend then
          exec (decodeChunkLen t.flen ((vlen t).getD 0)) t
        else .next t

/-- A chunk that holds a whole frame and more is discarded whole: the frame is lost and the overrun is reported (42_reassembler.md R146,
70_reset_and_hazards.md R305). That the count in the pulse saturates at 65798 is the model's choice (assumption 5, from 10_state.md R23
and R28). -/
def Obligations.ChunkLongerThanItsFrameIsLost : Prop :=
  ∀ (s : State) (frame more : Bytes) (rest : List Input),
    Inv s → s.rsm = .idle → WellFormedFrame s.cfg frame → more ≠ [] → s.input = .chunk (frame ++ more) :: rest →
    ∃ m, step s =
      .next { s with
        input := rest, mem := m, diagOut := s.diagOut ++ [.overrun (min (frame.length + more.length) 65798) frame.length] }

/-- With one-byte chunks no step overruns: the only pulse is the drop of a byte that is not the sync marker, taken in `Idle`
(42_reassembler.md R150). -/
def Obligations.OneByteChunksNeverOverrun : Prop :=
  ∀ (s : State) (b : Byte) (rest : List Input), Inv s → s.input = .chunk [b] :: rest →
    ∃ t, step s = .next t ∧
      t.diagOut = s.diagOut ++ (if s.rsm = .idle ∧ b ≠ 0x55 then [.drop 1] else [])

/-- Chunking invariance (42_reassembler.md R149): however a well-formed frame is cut into non-empty chunks, nothing is emitted before the
last chunk, that step emits the record of exactly this frame, and the Reassembler ends in `Idle`. -/
def Obligations.ChunkingInvariance : Prop :=
  ∀ (s : State) (frame : Bytes) (chunks : List Bytes) (rest : List Input),
    Inv s → s.rsm = .idle → WellFormedFrame s.cfg frame → IsCut frame chunks → s.input = chunks.map .chunk ++ rest →
    ∃ r : Telegram, decodeFrame s.cfg s.reg frame = some r ∧ r.frame = frame ∧
      (∀ k, k < chunks.length → ∃ u : State, core.run k s = .next u ∧ u.telOut = s.telOut) ∧
      ∃ t : State, core.run chunks.length s = .next t ∧
        t.rsm = .idle ∧ t.flen = 0 ∧ t.input = rest ∧ t.telOut = s.telOut ++ eventsOf r ∧ t.diagOut = s.diagOut ∧
        SameSurroundings s t

/-- A byte-serial front end loses no frame: well-formed frames back to back, one byte a chunk, are all emitted, in order
(42_reassembler.md R150, 20_memory.md R59). -/
def Obligations.ByteSerialStreamEmitsEveryFrame : Prop :=
  ∀ (s : State) (frames : List Bytes) (rest : List Input),
    Inv s → s.rsm = .idle → (∀ f ∈ frames, WellFormedFrame s.cfg f) →
    s.input = frames.flatten.map (fun b => .chunk [b]) ++ rest →
    ∃ records : List Telegram, records.map some = frames.map (decodeFrame s.cfg s.reg) ∧
      ∃ t : State, core.run frames.flatten.length s = .next t ∧
        t.rsm = .idle ∧ t.input = rest ∧ t.telOut = s.telOut ++ records.flatMap eventsOf ∧ t.diagOut = s.diagOut

/-! The frame decoder. -/

/-- `ESP3.HDR` (43_esp3_frame.md R161) and `ESP3.CRC8H` (R162). -/
def Obligations.Esp3HeaderIsReadAndChecked : Prop :=
  ∀ (s : State) (b0 b1 b2 b3 b4 b5 : Byte) (more : Bytes),
    s.fields.frame = b0 :: b1 :: b2 :: b3 :: b4 :: b5 :: more →
    exec .esp3Hdr s =
      .next { s with
        fields := { s.fields with
          dlen := (match s.cfg.lenOrder with | .big => b1 ++ b2 | .little => b2 ++ b1)
          olen := b3
          ptype := b4
          crc8h := b5 } } ∧
    exec .esp3Crc8h s =
      .next { s with
        fields := { s.fields with
          crc8hOk := decide (crc8 s.cfg.crc8Table [b1, b2, b3, b4] = b5)
          reason := withReason (if crc8 s.cfg.crc8Table [b1, b2, b3, b4] = b5 then none else some .hdrCrc) s.fields.reason } }

/-- `ESP3.ERP1` and `ESP3.ERP2` (43_esp3_frame.md R163): the data region is selected and the radio decoder of the kind runs over it, and
it completes. R163 presumes a complete frame and conditions each on `PTYPE`; that it completes on every `FRAME`, one that ends before
`6 + DLEN` included, is the model's choice (assumption 32), and so is that it runs whatever `PTYPE` holds (assumption 35). -/
def Obligations.Esp3RadioRowsRunTheirDecoder : Prop :=
  ∀ s : State,
    (∃ t, exec .esp3Erp1 s = .next t ∧
      exec .erp1Decode { s with fields := { s.fields with data := ⟨6, s.fields.dlen.toNat⟩, kind := .erp1 } } = .next t) ∧
    (∃ t, exec .esp3Erp2 s = .next t ∧
      exec .erp2Decode { s with fields := { s.fields with data := ⟨6, s.fields.dlen.toNat⟩, kind := .erp2 } } = .next t)

/-- `ESP3.OTHER` (43_esp3_frame.md R164) with the opaque result spelled out (R165). That it gives this result whatever its operand and
`PTYPE` hold, equal or not, `0x01` and `0x0A` included, is the model's choice (assumption 35). -/
def Obligations.Esp3OtherIsOpaque : Prop :=
  ∀ (s : State) (p : Byte) (header data more : Bytes),
    s.fields.frame = header ++ (data ++ more) → header.length = 6 → data.length = s.fields.dlen.toNat →
    exec (.esp3Other p) s =
      .next { s with
        fields := { s.fields with
          data := ⟨6, data.length⟩
          kind := .other
          crcsubOk := none
          isOpaque := true
          report := ⟨[], none, false, data⟩
          learn := false
          known := false
          reason := withReason (some .ptypeUnknown) s.fields.reason } }

/-- `ESP3.OPT` and the signal strength (43_esp3_frame.md R166, R167, R168), for every packet type and every optional length. The sign of
`DBM`, and `none` for a region that is too short, are the spec's own additions to its source (R167: general knowledge; assumption 10). -/
def Obligations.Esp3OptReadsTheSignalStrength : Prop :=
  ∀ (s : State) (front opt more : Bytes),
    s.fields.frame = front ++ (opt ++ more) → front.length = 6 + s.fields.dlen.toNat → opt.length = s.fields.olen.toNat →
    exec .esp3Opt s =
      .next { s with
        fields := { s.fields with
          opt := ⟨front.length, opt.length⟩
          dbm := ((s.cfg.optTable.find? (fun row => decide (row.1 = s.fields.ptype))).bind (fun row => opt[row.2]?)).map
            (fun b => -(b.toNat : Int)) } }

/-- `ESP3.CRC8D` (43_esp3_frame.md R169): the check covers the data region and the optional region. -/
def Obligations.Esp3Crc8dChecksDataAndOptional : Prop :=
  ∀ (s : State) (header covered more : Bytes) (k : Byte),
    s.fields.frame = header ++ (covered ++ k :: more) → header.length = 6 →
    covered.length = s.fields.dlen.toNat + s.fields.olen.toNat →
    exec .esp3Crc8d s =
      .next { s with
        fields := { s.fields with
          crc8d := k
          crc8dOk := decide (crc8 s.cfg.crc8Table covered = k)
          reason := withReason (if crc8 s.cfg.crc8Table covered = k then none else some .dataCrc) s.fields.reason } }

/-- `ESP3.MERGE` (43_esp3_frame.md R170) with the two events (60_exceptions.md R270, R271, R272). -/
def Obligations.Esp3MergeEmitsTheTwoEvents : Prop :=
  ∀ s : State, ∃ r : Telegram,
    r = { s.fields with crc := s.fields.crc8hOk && (s.fields.crc8dOk && decide (s.fields.crcsubOk ≠ some false)) } ∧
    exec .esp3Merge s =
      .next { s with
        fields := r
        telOut := s.telOut ++
          [⟨if r.learn = true then .learn else if r.known = true then .known else .unknown, r⟩, ⟨.data, r⟩] }

/-- `ESP3.DECODE` (43_esp3_frame.md R160) on every `FRAME`, a well-formed one or not: the seven steps in their order, none skipped for a
mismatch, the radio decoder by the packet type; and it completes. What a step reads where `FRAME` ends too early is free (assumption
32). -/
def Obligations.Esp3DecodeRunsItsSevenSteps : Prop :=
  ∀ s : State,
    (exec .esp3Decode s =
      andThen (exec .esp3Hdr s) fun s2 =>
      andThen (exec .esp3Crc8h s2) fun s3 =>
      andThen (exec (decodeEsp3 s3.fields.ptype) s3) fun s4 =>
      andThen
        (if s4.fields.olen = 0 then
          .next { s4 with fields := { s4.fields with opt := ⟨6 + s4.fields.dlen.toNat, 0⟩, dbm := none } }
         else exec .esp3Opt s4) fun s5 =>
      andThen (exec .esp3Crc8d s5) fun s6 => exec .esp3Merge s6) ∧
    ∃ t, exec .esp3Decode s = .next t

/-! The ERP2 decoder. -/

/-- `ERP2.SUBCRC` (44_erp2.md R181), the empty data region included. -/
def Obligations.Erp2SubcrcChecksTheSubframe : Prop :=
  ∀ s : State,
    (∀ (body : Bytes) (k : Byte), dataBytes s.fields = body ++ [k] →
      exec .erp2Subcrc s =
        .next { s with
          fields := { s.fields with
            crcsubOk := some (decide (crc8 s.cfg.crc8Table body = k))
            reason := withReason (if crc8 s.cfg.crc8Table body = k then none else some .subCrc) s.fields.reason } }) ∧
    (dataBytes s.fields = [] →
      exec .erp2Subcrc s =
        .next { s with fields := { s.fields with crcsubOk := some false, reason := withReason (some .subCrc) s.fields.reason } })

/-- `ERP2.HDRBYTE` (44_erp2.md R182): bits 7 to 5, bit 4, bits 3 to 0 of the first byte. -/
def Obligations.Erp2HdrbyteSplitsTheHeader : Prop :=
  ∀ (s : State) (h : Byte) (more : Bytes), dataBytes s.fields = h :: more →
    exec .erp2Hdrbyte s =
      .next { s with
        fields := { s.fields with
          ac := some (h.extractLsb' 5 3), eha := some (h.extractLsb' 4 1), tt := some (h.extractLsb' 0 4) } }

/-- The Address Control operations where `AC_TABLE` gives widths (44_erp2.md R184, R185): originator and destination id. The rows of the
default table other than 000 are the spec's general knowledge; the statement is over every table. That each operation, `ERP2.ACRSV`
included, reads its row of the table and slices where another table gives it widths is the model's reading (assumption 27), and that it
does so whatever `AC` holds the model's choice (assumption 35). -/
def Obligations.Erp2AddressControlSlicesTheIds : Prop :=
  ∀ (s : State) (eha : BitVec 1) (tt : BitVec 4) (ac : BitVec 2) (row : AcRow) (h : Byte) (oid did more : Bytes),
    dataBytes s.fields = h :: (oid ++ (did ++ more)) → oid.length = widthBytes row.width →
    did.length = (if row.hasDid then 4 else 0) → more ≠ [] →
    ∀ p ∈ [(Instr.erp2Ac0 eha tt, 0), (.erp2Ac1 eha tt, 1), (.erp2Ac2 eha tt, 2), (.erp2Ac3 eha tt, 3),
           (.erp2Acrsv ac eha tt, 4 + ac.toNat)],
      s.cfg.acTable[p.2]? = some (some row) →
      exec p.1 s =
        .next { s with
          fields := { s.fields with
            oidw := some row.width
            oid := some (BitVec.ofNat 48 (bigEndian oid))
            did := if row.hasDid then some (BitVec.ofNat 32 (bigEndian did)) else none } }

/-- A reserved Address Control, the extended-header flag and a short region, on both of its conditions, give the opaque result with their
reason, and nothing else (44_erp2.md R194, R195). That `ERP2.AC0` to `ERP2.AC3` degrade under a table that reserves their value is the
model's reading (assumption 27); that these operations and `ERP2.EHA` do so whatever `AC` and `EHA` hold is the model's choice
(assumption 35), and so is that on an empty region, too, they give their own reason and leave `AC`, `EHA`, `TT` and `RORG`
(assumption 38). -/
def Obligations.Erp2GuardsAreOpaque : Prop :=
  ∀ (s : State) (eha : BitVec 1) (tt : BitVec 4) (ac : BitVec 2) (ac3 : BitVec 3),
    (∀ p ∈ [(Instr.erp2Ac0 eha tt, 0), (.erp2Ac1 eha tt, 1), (.erp2Ac2 eha tt, 2), (.erp2Ac3 eha tt, 3),
            (.erp2Acrsv ac eha tt, 4 + ac.toNat)],
      s.cfg.acTable[p.2]? = some none →
      exec p.1 s = .next { s with fields := opaqueResult .erp2AcReserved s.fields }) ∧
    exec (.erp2Eha ac3 tt) s = .next { s with fields := opaqueResult .erp2Eha s.fields } ∧
    (dataBytes s.fields = [] →
      exec .erp2Short s =
        .next { s with
          fields := opaqueResult .erp2Short { s.fields with ac := none, eha := none, tt := none, rorg := none } }) ∧
    (∀ row, dataBytes s.fields ≠ [] → s.fields.ac = some ac3 → s.cfg.acTable[ac3.toNat]? = some (some row) →
      (dataBytes s.fields).length < widthBytes row.width + (if row.hasDid then 4 else 0) + 2 →
      exec .erp2Short s = .next { s with fields := opaqueResult .erp2Short s.fields })

/-- The sixteen Telegram Type operations (44_erp2.md R183, R188; 30_encoding.md R93): the RORG that each reports, its value in the default
table, and once Data_DL has been sliced the Teach-In decoder of the type: for 1BS a Teach-In without profile and manufacturer exactly for
one byte with bit 3 clear (30_encoding.md R99). That the Teach-In of R188 is run by the operation of R183 when
Data_DL is there is the model's reading (assumption 22), and that it runs whatever `TT` holds the model's choice (assumption 35). -/
def Obligations.Erp2TelegramTypesReportTheRorg : Prop :=
  ∀ (s : State) (ac : BitVec 3) (eha : BitVec 1),
    ∀ p ∈ ([(.erp2Tt0 ac eha, 0, some 0xF6), (.erp2Tt1 ac eha, 1, some 0xD5), (.erp2Tt2 ac eha, 2, some 0xA5),
            (.erp2Tt3 ac eha, 3, some 0xD0), (.erp2Tt4 ac eha, 4, some 0xD2), (.erp2Tt5 ac eha, 5, some 0xD4),
            (.erp2Tt6 ac eha, 6, some 0xD1), (.erp2Tt7 ac eha, 7, some 0x30), (.erp2Tt8 ac eha, 8, some 0x31),
            (.erp2Tt9 ac eha, 9, some 0x35), (.erp2Tt10 ac eha, 10, some 0xB3), (.erp2Ttrsv11 ac eha, 11, none),
            (.erp2Ttrsv12 ac eha, 12, none), (.erp2Ttrsv13 ac eha, 13, none), (.erp2Ttrsv14 ac eha, 14, none),
            (.erp2Ttext ac eha, 15, none)] : List (Instr × Nat × Option Byte)),
      configDefault.ttTable[p.2.1]? = some p.2.2 ∧
      ∃ ti : Option TeachIn,
        ti = (if p.2.1 = 2 then teachIn4bs s.cfg.teachin4bs (dlBytes s.fields)
              else if p.2.1 = 1 then
                (match dlBytes s.fields with
                 | [b] => if b.getLsbD 3 then none else some ⟨none, none, none⟩
                 | _ => none)
              else none) ∧
        exec p.1 s =
          .next { s with
            fields := { s.fields with
              rorg := s.cfg.ttTable.getD p.2.1 none
              ti := if s.fields.dl = none then s.fields.ti else ti
              manuf := if s.fields.dl = none then s.fields.manuf else ti.bind TeachIn.manuf } }

/-- `ERP2.DECODE` on a region that no guard turns away (44_erp2.md R180 to R192): every register it writes, from the slices to the
resolved profile, and one question to the registry; the value map of a teach-in report written out (46_eep_dispatch.md R229; that a field
that is `none` has no entry is the model's choice, assumption 30). -/
def Obligations.Erp2DecodeFillsEveryRegister : Prop :=
  ∀ (s : State) (row : AcRow) (h k : Byte) (oid did dl : Bytes),
    dataBytes s.fields = h :: (oid ++ (did ++ (dl ++ [k]))) →
    s.cfg.acTable[(h.extractLsb' 5 3).toNat]? = some (some row) → h.getLsbD 4 = false →
    oid.length = widthBytes row.width → did.length = (if row.hasDid then 4 else 0) →
    ∃ (id : Id48) (ti : Option TeachIn) (found : Option RegDevice) (sub : Bool),
      id = BitVec.ofNat 48 (bigEndian oid) ∧
      ti = (if h.extractLsb' 0 4 = 2 then teachIn4bs s.cfg.teachin4bs dl
            else if h.extractLsb' 0 4 = 1 then
              (match dl with
               | [b] => if b.getLsbD 3 then none else some ⟨none, none, none⟩
               | _ => none)
            else none) ∧
      found = regLookup s.reg id ∧
      sub = decide (crc8 s.cfg.crc8Table (h :: (oid ++ (did ++ dl))) = k) ∧
      (∀ x, ti = some x → (frameReport s.cfg ti found dl).1 =
        ⟨x.eep.toList.map (fun e => (.eep, .raw e.toNat)) ++ (x.manuf.toList.map (fun m => (.manuf, .raw m.toNat)) ++
          x.ute.toList.flatMap (fun u => [(.dir, .raw u.dir), (.noresp, .raw u.noresp), (.result, .raw u.result),
            (.cmd, .raw u.cmd), (.channels, .raw u.channels)])), none, true, dl⟩) ∧
      exec .erp2Decode s =
        .next { s with
          regQ := s.regQ ++ [id]
          fields := { s.fields with
            crcsubOk := some sub
            ac := some (h.extractLsb' 5 3)
            eha := some 0
            tt := some (h.extractLsb' 0 4)
            rorg := s.cfg.ttTable.getD (h.extractLsb' 0 4).toNat none
            oidw := some row.width
            oid := some id
            did := if row.hasDid then some (BitVec.ofNat 32 (bigEndian did)) else none
            dl := some ⟨s.fields.data.off + (1 + oid.length + did.length), dl.length⟩
            ti := ti
            manuf := ti.bind TeachIn.manuf
            eep := resolvedEep ti found
            report := (frameReport s.cfg ti found dl).1
            learn := (frameReport s.cfg ti found dl).1.learn
            dev := some (frameDevice id ti found)
            known := isKnown s.cfg.profileTable (resolvedEep ti found)
            reason := withReason (frameReport s.cfg ti found dl).2
              (withReason (if sub then none else some .subCrc) s.fields.reason) } }

/-- `ERP2.DECODE` on a region that a guard turns away (44_erp2.md R180, R194, R195; 60_exceptions.md R274): the first that applies of the
four guards gives the opaque result, the registers written before it keep their values, nothing is looked up. That a register which is not
written keeps what an earlier operation left there, where R165 says it stays `none`, is the model's reading (assumption 37). -/
def Obligations.Erp2DecodeDegradesForTheFirstReason : Prop :=
  ∀ s : State,
    (dataBytes s.fields = [] →
      exec .erp2Decode s =
        .next { s with
          fields := opaqueResult .erp2Short
            { s.fields with
              crcsubOk := some false, ac := none, eha := none, tt := none, rorg := none
              reason := withReason (some .subCrc) s.fields.reason } }) ∧
    ∀ (h : Byte) (more : Bytes), dataBytes s.fields = h :: more →
      ∃ (sub : Bool) (f : Telegram),
        sub = crc8Ok s.cfg.crc8Table ((h :: more).getLastD 0) (h :: more).dropLast ∧
        f = { s.fields with
              crcsubOk := some sub
              ac := some (h.extractLsb' 5 3)
              eha := some (h.extractLsb' 4 1)
              tt := some (h.extractLsb' 0 4)
              rorg := s.cfg.ttTable.getD (h.extractLsb' 0 4).toNat none
              reason := withReason (if sub then none else some .subCrc) s.fields.reason } ∧
        (s.cfg.acTable.getD (h.extractLsb' 5 3).toNat none = none →
          exec .erp2Decode s = .next { s with fields := opaqueResult .erp2AcReserved f }) ∧
        ∀ row, s.cfg.acTable.getD (h.extractLsb' 5 3).toNat none = some row →
          (h.getLsbD 4 = true → exec .erp2Decode s = .next { s with fields := opaqueResult .erp2Eha f }) ∧
          (h.getLsbD 4 = false → (h :: more).length < widthBytes row.width + (if row.hasDid then 4 else 0) + 2 →
            exec .erp2Decode s = .next { s with fields := opaqueResult .erp2Short f })

/-! The ERP1 decoder. -/

/-- `ERP1.SHORT` (45_erp1.md R201), alone and as the guard of `ERP1.DECODE`: lengths 0 to 6. -/
def Obligations.Erp1ShortIsOpaque : Prop :=
  ∀ s : State, (dataBytes s.fields).length < 7 →
    exec .erp1Short s = .next { s with fields := opaqueResult .erp1Short s.fields } ∧
    exec .erp1Decode s = .next { s with fields := opaqueResult .erp1Short { s.fields with crcsubOk := none } }

/-- `ERP1.FIELDS` (45_erp1.md R202 to R205) on every data region of 7 bytes or more. -/
def Obligations.Erp1FieldsSliceTheTrailer : Prop :=
  ∀ (s : State) (rorg status : Byte) (dl oid : Bytes),
    dataBytes s.fields = rorg :: (dl ++ (oid ++ [status])) → oid.length = 4 → dl ≠ [] →
    exec .erp1Fields s =
      .next { s with
        fields := { s.fields with
          rorg := some rorg
          status := some status
          rpt := some (status.extractLsb' 0 4)
          oid := some (BitVec.ofNat 48 (bigEndian oid))
          oidw := some .w4
          did := none
          dl := some ⟨s.fields.data.off + 1, dl.length⟩ } }

/-- `ERP1.TI4BS` (45_erp1.md R207): in any value of the parameter `TI` is what `TEACHIN_4BS` yields; in the default layout (30_encoding.md
R98, general knowledge of the spec) these are the bits; where the parameter is a function written out, its value (assumption 3). Where no
Data_DL has been sliced there is no Teach-In, the model's reading (assumption 29). That it runs whatever `RORG` holds is the model's
choice (assumption 35). -/
def Obligations.Erp1Ti4bsReadsTheTeachIn : Prop :=
  ∀ s : State,
    (s.fields.dl = none → exec .erp1Ti4bs s = .next { s with fields := { s.fields with ti := none, manuf := none } }) ∧
    ∀ sl : Slice, s.fields.dl = some sl →
      ∃ ti : Option TeachIn,
        exec .erp1Ti4bs s = .next { s with fields := { s.fields with ti := ti, manuf := ti.bind TeachIn.manuf } } ∧
        ((dlBytes s.fields).length ≠ 4 → ti = none) ∧
        ∀ b3 b2 b1 b0 : Byte, dlBytes s.fields = [b3, b2, b1, b0] →
          (b0.getLsbD 3 = true → ti = none) ∧
          (b0.getLsbD 3 = false → ti ≠ none) ∧
          (b0.getLsbD 3 = false → s.cfg.teachin4bs = configDefault.teachin4bs →
            ti = some (if b0.getLsbD 7 then
              ⟨some (0xA5#8 ++ (0#2 ++ b3.extractLsb' 2 6) ++ (0#1 ++ (b3.extractLsb' 0 2 ++ b2.extractLsb' 3 5))),
               some (b2.extractLsb' 0 3 ++ b1), none⟩
              else ⟨none, none, none⟩)) ∧
          (∀ rows others, b0.getLsbD 3 = false → s.cfg.teachin4bs = .table rows others →
            ∃ y : Yield4bs, y = ((rows.find? (fun r => decide (r.1 = [b3, b2, b1, b0]))).map Prod.snd).getD others ∧
              ti = some ⟨y.eep, y.manuf, none⟩)

/-- `ERP1.TIUTE` (45_erp1.md R207, R213): a Teach-In exactly for 7 bytes, with the fields of the default layout (30_encoding.md R100,
general knowledge of the spec) or of the function written out (assumption 3), and none where no Data_DL has been sliced, the model's
reading (assumption 29); `ERP1.TI1BS` and `ERP1.TINONE`: never a Teach-In (45_erp1.md R207), in every state. That each runs whatever
`RORG` holds is the model's choice (assumption 35). -/
def Obligations.Erp1TiuteAndTheRorgsWithoutTeachIn : Prop :=
  ∀ s : State,
    (s.fields.dl = none → exec .erp1Tiute s = .next { s with fields := { s.fields with ti := none, manuf := none } }) ∧
    (∀ sl : Slice, s.fields.dl = some sl →
      ∃ ti : Option TeachIn,
        exec .erp1Tiute s = .next { s with fields := { s.fields with ti := ti, manuf := ti.bind TeachIn.manuf } } ∧
        (ti = none ↔ (dlBytes s.fields).length ≠ 7) ∧
        ∀ p0 p1 p2 p3 p4 p5 p6 : Byte, dlBytes s.fields = [p0, p1, p2, p3, p4, p5, p6] →
          (s.cfg.teachinUte = configDefault.teachinUte →
            ti = some ⟨some (p6 ++ p5 ++ p4), some (p3.extractLsb' 0 3 ++ p2),
              some ⟨(p0.extractLsb' 7 1).toNat, (p0.extractLsb' 6 1).toNat, (p0.extractLsb' 4 2).toNat,
                (p0.extractLsb' 0 4).toNat, p1.toNat⟩⟩) ∧
          (∀ rows others, s.cfg.teachinUte = .table rows others →
            ∃ y : YieldUte, y = ((rows.find? (fun r => decide (r.1 = [p0, p1, p2, p3, p4, p5, p6]))).map Prod.snd).getD others ∧
              ti = some ⟨some y.eep, some y.manuf, some y.ute⟩)) ∧
    exec .erp1Ti1bs s = .next { s with fields := { s.fields with ti := none, manuf := none } } ∧
    ∀ rorg, exec (.erp1Tinone rorg) s = .next { s with fields := { s.fields with ti := none, manuf := none } }

/-- `ERP1.DECODE` on a region of 7 bytes or more (45_erp1.md R200 to R211): every register it writes and one question to the registry;
the value map of a teach-in report written out (46_eep_dispatch.md R229; that a field that is `none` has no entry is the model's choice,
assumption 30). -/
def Obligations.Erp1DecodeFillsEveryRegister : Prop :=
  ∀ (s : State) (rorg status : Byte) (dl oid : Bytes),
    dataBytes s.fields = rorg :: (dl ++ (oid ++ [status])) → oid.length = 4 → dl ≠ [] →
    ∃ (id : Id48) (ti : Option TeachIn) (found : Option RegDevice),
      id = BitVec.ofNat 48 (bigEndian oid) ∧
      ti = (if rorg = 0xA5 then teachIn4bs s.cfg.teachin4bs dl
            else if rorg = 0xD4 then teachInUte s.cfg.teachinUte dl else none) ∧
      found = regLookup s.reg id ∧
      (∀ x, ti = some x → (frameReport s.cfg ti found dl).1 =
        ⟨x.eep.toList.map (fun e => (.eep, .raw e.toNat)) ++ (x.manuf.toList.map (fun m => (.manuf, .raw m.toNat)) ++
          x.ute.toList.flatMap (fun u => [(.dir, .raw u.dir), (.noresp, .raw u.noresp), (.result, .raw u.result),
            (.cmd, .raw u.cmd), (.channels, .raw u.channels)])), none, true, dl⟩) ∧
      exec .erp1Decode s =
        .next { s with
          regQ := s.regQ ++ [id]
          fields := { s.fields with
            crcsubOk := none
            rorg := some rorg
            status := some status
            rpt := some (status.extractLsb' 0 4)
            oid := some id
            oidw := some .w4
            did := none
            dl := some ⟨s.fields.data.off + 1, dl.length⟩
            ti := ti
            manuf := ti.bind TeachIn.manuf
            eep := resolvedEep ti found
            report := (frameReport s.cfg ti found dl).1
            learn := (frameReport s.cfg ti found dl).1.learn
            dev := some (frameDevice id ti found)
            known := isKnown s.cfg.profileTable (resolvedEep ti found)
            reason := withReason (frameReport s.cfg ti found dl).2 s.fields.reason } }

/-- An operation that is run alone where its rule's condition on the operands or the state does not hold. An operation that its key or a
comparison does not select changes nothing (30_encoding.md R80 says so of the length guards; of the Reassembler's operations it is read
from R84, assumption 7), and nothing happens while no chunk is offered (60_exceptions.md R283). A radio operation on a region shorter than
it slices gives the opaque result (30_encoding.md R102; assumption 33); that the Address Control operations leave `AC`, `EHA`, `TT` and
`RORG` on an empty one too is the model's choice (assumption 38). An `ESP3` operation completes on every `FRAME`, and reads free bytes
where `FRAME` ends too early (assumption 32); `ESP3.OTHER` does so whatever its operand and `PTYPE` hold, and the Address Control
operations whatever `AC` holds (assumption 35). An extractor answers, with a value that is free within the width that its rule states
(assumption 28), and a slice whose end is not beyond its start is empty (00_scope.md R11). What stops is a read of the buffer where it
holds no byte (assumption 2). -/
def Obligations.OperationsOutsideTheirCondition : Prop :=
  ∀ s : State,
    (∀ (b : Byte) (hi lo : Fin 8), ∃ n, exec (.bfField b hi lo) s = .next { s with fnOut := some (.num n) }) ∧
    (∀ a wa b wb : Nat, ∃ n, n < 2 ^ (wa + wb) ∧ exec (.bfCat a wa b wb) s = .next { s with fnOut := some (.num n) }) ∧
    (∀ (bytes : Bytes) (a : Nat), ∃ n, n < 65536 ∧ exec (.bfU16 bytes a) s = .next { s with fnOut := some (.num n) }) ∧
    (∀ (bytes : Bytes) (a b : Nat), ∃ r, exec (.bfSlice bytes a b) s = .next { s with fnOut := some (.bytes r) } ∧
      (b ≤ a → r = [])) ∧
    (∀ id : Bytes, ∃ i, exec (.bfIdnorm id) s = .next { s with fnOut := some (.id i) }) ∧
    ((∀ c rest, s.input ≠ .chunk c :: rest) →
      ∀ b, ∀ i ∈ [Instr.rsmStep, .rsmNop, .rsmStart, .rsmAppend, .rsmDrop b], exec i s = .next s) ∧
    (∀ (c : Bytes) (rest : List Input), s.input = .chunk c :: rest →
      (c ≠ [] → exec .rsmNop s = .next s) ∧
      (s.rsm ≠ .idle ∨ c.head? ≠ some 0x55 → exec .rsmStart s = .next s) ∧
      (s.rsm ≠ .accumulating ∨ c = [] → exec .rsmAppend s = .next s) ∧
      ∀ b, s.rsm ≠ .idle ∨ c.head? ≠ some b ∨ b = 0x55 → exec (.rsmDrop b) s = .next s) ∧
    (s.flen ≤ 6 → exec .rsmEmit s = .next s ∧ exec .rsmOverrun s = .next s) ∧
    (6 < s.flen → vlen s = none →
      exec .rsmEmit s = .fault (.frameSpace 0) ∧ exec .rsmOverrun s = .fault (.frameSpace 0)) ∧
    (∀ v, vlen s = some v → 6 < s.flen →
      (s.flen ≠ v → exec .rsmEmit s = .next s) ∧
      (s.flen ≤ v → exec .rsmOverrun s = .next s) ∧
      (s.flen = v → memReadBytes s.mem 0 v = none → exec .rsmEmit s = .fault (.frameSpace 0)) ∧
      (∀ frame, s.flen = v → memReadBytes s.mem 0 v = some frame →
        ∃ t, exec .esp3Decode { s with fields := { blankTelegram with frame := frame } } = .next t ∧
          exec .rsmEmit s = .next { t with rsm := .idle, flen := 0, fields := blankTelegram })) ∧
    (∃ hd : Fin 6 → Byte, (∀ (k : Fin 6) (b : Byte), s.fields.frame[k.val]? = some b → hd k = b) ∧
      exec .esp3Hdr s =
        .next { s with
          fields := { s.fields with
            dlen := (match s.cfg.lenOrder with | .big => hd 1 ++ hd 2 | .little => hd 2 ++ hd 1)
            olen := hd 3
            ptype := hd 4
            crc8h := hd 5 } } ∧
      exec .esp3Crc8h s =
        .next { s with
          fields := { s.fields with
            crc8hOk := decide (crc8 s.cfg.crc8Table [hd 1, hd 2, hd 3, hd 4] = hd 5)
            reason :=
              withReason (if crc8 s.cfg.crc8Table [hd 1, hd 2, hd 3, hd 4] = hd 5 then none else some .hdrCrc) s.fields.reason } }) ∧
    (∃ d : Bytes, d.length = s.fields.dlen.toNat ∧
      (∀ (k : Nat) (b : Byte), k < d.length → s.fields.frame[6 + k]? = some b → d[k]? = some b) ∧
      ∀ p, exec (.esp3Other p) s =
        .next { s with
          fields := { s.fields with
            data := ⟨6, d.length⟩
            kind := .other
            crcsubOk := none
            isOpaque := true
            report := ⟨[], none, false, d⟩
            learn := false
            known := false
            reason := withReason (some .ptypeUnknown) s.fields.reason } }) ∧
    (∃ o : Bytes, o.length = s.fields.olen.toNat ∧
      (∀ (k : Nat) (b : Byte), k < o.length → s.fields.frame[6 + s.fields.dlen.toNat + k]? = some b → o[k]? = some b) ∧
      exec .esp3Opt s =
        .next { s with
          fields := { s.fields with
            opt := ⟨6 + s.fields.dlen.toNat, o.length⟩
            dbm := ((s.cfg.optTable.find? (fun row => decide (row.1 = s.fields.ptype))).bind (fun row => o[row.2]?)).map
              (fun b => -(b.toNat : Int)) } }) ∧
    (∃ (d : Bytes) (k : Byte), d.length = s.fields.dlen.toNat + s.fields.olen.toNat ∧
      (∀ (i : Nat) (b : Byte), i < d.length → s.fields.frame[6 + i]? = some b → d[i]? = some b) ∧
      (∀ b, s.fields.frame[6 + d.length]? = some b → k = b) ∧
      exec .esp3Crc8d s =
        .next { s with
          fields := { s.fields with
            crc8d := k
            crc8dOk := decide (crc8 s.cfg.crc8Table d = k)
            reason := withReason (if crc8 s.cfg.crc8Table d = k then none else some .dataCrc) s.fields.reason } }) ∧
    (dataBytes s.fields = [] →
      exec .erp2Hdrbyte s =
        .next { s with
          fields := opaqueResult .erp2Short { s.fields with ac := none, eha := none, tt := none, rorg := none } }) ∧
    (∀ (eha : BitVec 1) (tt : BitVec 4) (ac : BitVec 2) (row : AcRow),
      (dataBytes s.fields).length < widthBytes row.width + (if row.hasDid then 4 else 0) + 2 →
      ∀ p ∈ [(Instr.erp2Ac0 eha tt, 0), (.erp2Ac1 eha tt, 1), (.erp2Ac2 eha tt, 2), (.erp2Ac3 eha tt, 3),
             (.erp2Acrsv ac eha tt, 4 + ac.toNat)],
        s.cfg.acTable[p.2]? = some (some row) →
        exec p.1 s = .next { s with fields := opaqueResult .erp2Short s.fields }) ∧
    (dataBytes s.fields ≠ [] →
      (∀ ac row, s.fields.ac = some ac → s.cfg.acTable[ac.toNat]? = some (some row) →
        widthBytes row.width + (if row.hasDid then 4 else 0) + 2 ≤ (dataBytes s.fields).length) →
      exec .erp2Short s = .next s) ∧
    ((dataBytes s.fields).length < 7 →
      exec .erp1Fields s = .next { s with fields := opaqueResult .erp1Short s.fields }) ∧
    (7 ≤ (dataBytes s.fields).length → exec .erp1Short s = .next s)

/-! The payload dispatch and the profiles. -/

/-- `EEP.DECODE` on a code (46_eep_dispatch.md R223, R226, R227, R228): the three tests in their order, each with its reason, else the
decoder of the entry: for the contact switch and the temperature the Reports of 47_profiles.md R241 and R244, written out. The answer at
the port and the register hold the same Report. The bits of the contact switch are the spec's general knowledge (assumption 10), the form
of a temperature is the model's choice (assumption 18), and an open entry's value map, description and learn flag are free
(assumption 9). That the answer at the port carries the reason beside the Report is the model's choice (assumption 36), and so is that the
operation run alone writes `REPORT` and `REASON` (assumption 23). -/
def Obligations.EepDecodeTestsInOrder : Prop :=
  ∀ (s : State) (e : Option Eep) (payload : Bytes), ∃ (r : Report) (why : Option Reason),
    exec (.eepDecode (.code e) payload) s =
      .next { s with
        fields := { s.fields with report := r, reason := withReason why s.fields.reason }
        fnOut := some (.report r why) } ∧
    (e = none → r = ⟨[], none, false, payload⟩ ∧ why = some .eepAbsent) ∧
    ∀ c, e = some c →
      ((∀ row ∈ s.cfg.profileTable, row.code ≠ c) → r = ⟨[], none, false, payload⟩ ∧ why = some .eepUnregistered) ∧
      ∀ row, s.cfg.profileTable.find? (fun row => decide (row.code = c)) = some row →
        (payload.length ≠ row.len → r = ⟨[], none, false, payload⟩ ∧ why = some .eepLength) ∧
        (payload.length = row.len → why = none ∧ r.raw = payload ∧
          (∀ b, payload = [b] → row.dec = .contactSwitch →
            r = ⟨[(.contact, .raw (if b.getLsbD 0 then 1 else 0))], some (if b.getLsbD 0 then .closed else .opened),
              !b.getLsbD 3, [b]⟩) ∧
          (∀ b3 b2 b1 b0, payload = [b3, b2, b1, b0] → row.dec = .temperature →
            ∃ m : Nat,
              r = ⟨[(.temperatureRaw, .raw b1.toNat),
                  (.temperature, .measured (40 * (255 - b1.toNat)) 255 m s.cfg.valueDigits)],
                some (.temperature m s.cfg.valueDigits), !b0.getLsbD 3, [b3, b2, b1, b0]⟩ ∧
              510 * m ≤ 80 * (255 - b1.toNat) * 10 ^ s.cfg.valueDigits + 255 ∧
              80 * (255 - b1.toNat) * 10 ^ s.cfg.valueDigits + 255 < 510 * (m + 1)) ∧
          (∀ k, row.dec = .other k →
            r = ⟨Config.otherValue k payload, Config.otherDesc k payload, Config.otherLearn k payload, payload⟩))

/-- `EEP.DECODE` on a text (30_encoding.md R105): six hex digits among spaces, hyphens and colons are the code; another number of digits
is the absent code; a text with any other character has no meaning. The canonical text of a code (R94) names that code to the dispatch,
to the membership test (R107) and to the teach interface (60_exceptions.md R280). -/
def Obligations.EepDecodeNormalisesText : Prop :=
  ∀ (s : State) (t : Text) (payload : Bytes),
    (eepTextOk t = false → exec (.eepDecode (.text t) payload) s = .refused .eepText) ∧
    (eepTextOk t = true → (t.filterMap hexVal).length ≠ 6 →
      exec (.eepDecode (.text t) payload) s = exec (.eepDecode (.code none) payload) s) ∧
    (eepTextOk t = true → (t.filterMap hexVal).length = 6 →
      exec (.eepDecode (.text t) payload) s =
        exec (.eepDecode (.code (some (BitVec.ofNat 24 (Nat.ofDigits 16 (t.filterMap hexVal).reverse)))) payload) s) ∧
    ∀ c : Eep,
      exec (.eepDecode (.text (canonicalEep c)) payload) s = exec (.eepDecode (.code (some c)) payload) s ∧
      exec (.eepIsknown (.text (canonicalEep c))) s = exec (.eepIsknown (.code (some c))) s ∧
      teachEep (canonicalEep c) = some c

/-- `EEP.ISKNOWN` (46_eep_dispatch.md R224, 30_encoding.md R107): membership; on a text, of the canonical form only. -/
def Obligations.EepIsknownIsMembership : Prop :=
  ∀ (s : State) (e : Option Eep) (t : Text),
    exec (.eepIsknown (.code e)) s =
      .next { s with fnOut := some (.bool (decide (∃ row ∈ s.cfg.profileTable, e = some row.code))) } ∧
    exec (.eepIsknown (.text t)) s =
      .next { s with fnOut := some (.bool (decide (∃ row ∈ s.cfg.profileTable, t = canonicalEep row.code))) }

/-- `EEP.D5-00-01` (47_profiles.md R241, R242, R243). The bit positions and the word "open" are the spec's general knowledge. That the row
run alone reads the frame's Data_DL, writes `REPORT` and leaves `REASON`, and on another length, or where no Data_DL has been sliced,
gives what the dispatch gives for a wrong length (46_eep_dispatch.md R227), with free `raw` bytes in the last case, is the model's reading
(assumptions 26, 29). -/
def Obligations.EepD50001ReadsContactAndLearn : Prop :=
  ∀ s : State,
    (∀ (sl : Slice) (b : Byte), s.fields.dl = some sl → dlBytes s.fields = [b] →
      exec .eepD50001 s =
        .next { s with
          fields := { s.fields with
            report := ⟨[(.contact, .raw (if b.getLsbD 0 then 1 else 0))], some (if b.getLsbD 0 then .closed else .opened),
              !b.getLsbD 3, [b]⟩ } }) ∧
    (∀ sl : Slice, s.fields.dl = some sl → (dlBytes s.fields).length ≠ 1 →
      exec .eepD50001 s =
        .next { s with
          fields := { s.fields with
            report := ⟨[], none, false, dlBytes s.fields⟩, reason := withReason (some .eepLength) s.fields.reason } }) ∧
    (s.fields.dl = none →
      ∃ raw, exec .eepD50001 s =
        .next { s with
          fields := { s.fields with
            report := ⟨[], none, false, raw⟩, reason := withReason (some .eepLength) s.fields.reason }
          freeCount := s.freeCount + 1 })

/-- `EEP.A5-02-05` (47_profiles.md R244, R245): the exact fraction, its nearest decimal, the formula of R245 for one digit, the learn
flag. That the fraction and the decimal stand together is the model's choice (assumption 18); that the row run alone reads the frame's
Data_DL, writes `REPORT` and leaves `REASON`, and what it gives on another length or without Data_DL, is the model's reading
(assumptions 26, 29). -/
def Obligations.EepA50205ReadsTheTemperature : Prop :=
  ∀ s : State,
    (∀ (sl : Slice) (b3 b2 b1 b0 : Byte), s.fields.dl = some sl → dlBytes s.fields = [b3, b2, b1, b0] →
      ∃ m : Nat,
        exec .eepA50205 s =
          .next { s with
            fields := { s.fields with
              report := ⟨[(.temperatureRaw, .raw b1.toNat),
                  (.temperature, .measured (40 * (255 - b1.toNat)) 255 m s.cfg.valueDigits)],
                some (.temperature m s.cfg.valueDigits), !b0.getLsbD 3, [b3, b2, b1, b0]⟩ } } ∧
        (510 * m ≤ 80 * (255 - b1.toNat) * 10 ^ s.cfg.valueDigits + 255 ∧
          80 * (255 - b1.toNat) * 10 ^ s.cfg.valueDigits + 255 < 510 * (m + 1)) ∧
        (s.cfg.valueDigits = 1 → m = (160 * (255 - b1.toNat) + 51) / 102)) ∧
    (∀ sl : Slice, s.fields.dl = some sl → (dlBytes s.fields).length ≠ 4 →
      exec .eepA50205 s =
        .next { s with
          fields := { s.fields with
            report := ⟨[], none, false, dlBytes s.fields⟩, reason := withReason (some .eepLength) s.fields.reason } }) ∧
    (s.fields.dl = none →
      ∃ raw, exec .eepA50205 s =
        .next { s with
          fields := { s.fields with
            report := ⟨[], none, false, raw⟩, reason := withReason (some .eepLength) s.fields.reason }
          freeCount := s.freeCount + 1 })

/-- `EEP.UNKNOWN` (46_eep_dispatch.md R225): the Unknown Report over Data_DL for every key that is not in the table; a key that a larger
table holds selects the row of its entry (30_encoding.md R95) and writes what the dispatch on that code writes. That the row run alone
reads the frame's Data_DL, writes `REPORT` and records no reason of its own is the model's reading (assumption 26); where no Data_DL has
been sliced the `raw` bytes are free (assumption 29). -/
def Obligations.EepUnknownKeepsTheRawBytes : Prop :=
  ∀ (s : State) (code : Option Eep),
    ((∀ c, code = some c → ∀ row ∈ s.cfg.profileTable, row.code ≠ c) →
      (∀ sl : Slice, s.fields.dl = some sl →
        exec (.eepUnknown code) s =
          .next { s with fields := { s.fields with report := ⟨[], none, false, dlBytes s.fields⟩ } }) ∧
      (s.fields.dl = none →
        ∃ raw, exec (.eepUnknown code) s =
          .next { s with
            fields := { s.fields with report := ⟨[], none, false, raw⟩ }, freeCount := s.freeCount + 1 })) ∧
    ∀ c, code = some c → (∃ row ∈ s.cfg.profileTable, row.code = c) →
      (∀ sl : Slice, s.fields.dl = some sl →
        ∃ t : State, exec (.eepDecode (.code code) (dlBytes s.fields)) s = .next t ∧
          exec (.eepUnknown code) s = .next { s with fields := t.fields }) ∧
      (s.fields.dl = none →
        ∃ raw, exec (.eepUnknown code) s =
          .next { s with
            fields := { s.fields with
              report := ⟨[], none, false, raw⟩, reason := withReason (some .eepLength) s.fields.reason }
            freeCount := s.freeCount + 1 })

/-! The ports and the host's interfaces. -/

/-- The function ports (10_state.md R39): the ten operations of the CRC8 engine, the extractors and the dispatch have one; a call puts the
operation's answer at the port and changes nothing else; any other operation is refused, which is the model's answer (assumption 34). -/
def Obligations.PortCallsChangeOnlyTheAnswer : Prop :=
  ∀ (s : State) (i : Instr) (rest : List Input), s.input = .port i :: rest →
    ∃ hasPort : Prop,
      (hasPort ↔
        (∃ bytes, i = .crc8Compute bytes) ∨ (∃ k bytes, i = .crc8Verify k bytes) ∨ (∃ b idx, i = .bfBit b idx) ∨
        (∃ b hi lo, i = .bfField b hi lo) ∨ (∃ a wa b wb, i = .bfCat a wa b wb) ∨ (∃ bytes a, i = .bfU16 bytes a) ∨
        (∃ bytes a b, i = .bfSlice bytes a b) ∨ (∃ id, i = .bfIdnorm id) ∨ (∃ e payload, i = .eepDecode e payload) ∨
        (∃ e, i = .eepIsknown e)) ∧
      (¬ hasPort → step s = .refused .notAPort) ∧
      (hasPort → ∀ u, exec i { s with input := rest } = .next u →
        step s = .next { s with input := rest, fnOut := u.fnOut } ∧ u.fnOut ≠ none)

/-- The teach interface (60_exceptions.md R280): a valid call overwrites the record of its id and no other; an invalid one changes
nothing but the answer. The query interface (R281) changes nothing but the answer, a validation error for a malformed id; a name update
changes the name of one record, or nothing where it is turned away (what it answers, its limit and when it is turned away are the model's
choice, assumption 13). That a successful teach answers the stored record is the model's choice (assumption 31). -/
def Obligations.HostInterfacesWriteOneRecord : Prop :=
  ∀ (s : State) (rest : List Input),
    (∀ req k e, s.input = .teach req :: rest → normId req.id = some k → teachEep req.eep = some e →
      (∀ n, req.name = some n → n.length ≤ 50) → (∀ m, req.manufacturer = some m → m.length ≤ 50) →
      ∃ reg, step s =
          .next { s with
            input := rest, reg := reg, hostOut := s.hostOut ++ [.stored ⟨k, e, req.name, req.manufacturer, true⟩] } ∧
        ∀ i, regLookup reg i = if i = k then some ⟨k, e, req.name, req.manufacturer, true⟩ else regLookup s.reg i) ∧
    (∀ req, s.input = .teach req :: rest →
      normId req.id = none ∨ teachEep req.eep = none ∨ (∃ n, req.name = some n ∧ 50 < n.length) ∨
        (∃ m, req.manufacturer = some m ∧ 50 < m.length) →
      ∃ err, step s = .next { s with input := rest, hostOut := s.hostOut ++ [.invalid err] }) ∧
    (∀ id k, s.input = .get id :: rest → normId id = some k →
      step s = .next { s with input := rest, hostOut := s.hostOut ++ [.found (regLookup s.reg k)] }) ∧
    (∀ id, s.input = .get id :: rest → normId id = none →
      step s = .next { s with input := rest, hostOut := s.hostOut ++ [.invalid .id] }) ∧
    (s.input = .getAll :: rest → step s = .next { s with input := rest, hostOut := s.hostOut ++ [.all s.reg] }) ∧
    (∀ id k name d, s.input = .rename id name :: rest → normId id = some k → (∀ n, name = some n → n.length ≤ 50) →
      regLookup s.reg k = some d →
      ∃ reg, step s = .next { s with input := rest, reg := reg, hostOut := s.hostOut ++ [.stored { d with name := name }] } ∧
        ∀ i, regLookup reg i = if i = k then some { d with name := name } else regLookup s.reg i) ∧
    (∀ id name, s.input = .rename id name :: rest →
      normId id = none ∨ (∃ n, name = some n ∧ 50 < n.length) ∨ (∃ k, normId id = some k ∧ regLookup s.reg k = none) →
      ∃ err, step s = .next { s with input := rest, hostOut := s.hostOut ++ [.invalid err] })

/-- The texts of device ids (30_encoding.md R106): after spaces and hyphens are removed, 6, 8 or 12 hex digits of either case and nothing
else. The texts of profiles at the teach interface (60_exceptions.md R280): two hex digits three times with hyphens between, in either
letter case and in no other form. Which characters are whitespace and which are hex digits are the model's choices (assumptions 14,
24). -/
def Obligations.TextsOfIdsAndProfilesAtTheHost : Prop :=
  (∀ (t u : Text), u = t.filter (fun c => !(isSpace c) && decide (c ≠ '-')) →
    ((∃ c ∈ u, hexVal c = none) → normId t = none) ∧
    (u.length ≠ 6 → u.length ≠ 8 → u.length ≠ 12 → normId t = none) ∧
    ((∀ c ∈ u, hexVal c ≠ none) → u.length = 6 ∨ u.length = 8 ∨ u.length = 12 →
      ∃ i, normId t = some i ∧ i.toNat = Nat.ofDigits 16 (u.filterMap hexVal).reverse)) ∧
  (∀ (t : Text) (e : Eep), teachEep t = some e ↔
    ∃ a b c d x y va vb vc vd vx vy, t = [a, b, '-', c, d, '-', x, y] ∧
      hexVal a = some va ∧ hexVal b = some vb ∧ hexVal c = some vc ∧ hexVal d = some vd ∧ hexVal x = some vx ∧
      hexVal y = some vy ∧ e = BitVec.ofNat 24 (Nat.ofDigits 16 [vy, vx, vd, vc, vb, va])) ∧
  (∀ t : Text, teachEep (t.map Char.toUpper) = teachEep t ∧ normId (t.map Char.toUpper) = normId t) ∧
  (∀ c v, hexVal c = some v ↔ (c, v) ∈ "0123456789ABCDEF".toList.zip (List.range 16) ∨
    (c, v) ∈ "abcdef".toList.zip [10, 11, 12, 13, 14, 15]) ∧
  teachEep "f6-02-04".toList = some 0xF60204 ∧ teachEep "F602 04".toList = none ∧ teachEep "F6:02:04".toList = none

/-- The invariant holds after reset, and there the Reassembler is idle with nothing buffered, nothing is on an output and the registry is
empty (10_state.md R42, 70_reset_and_hazards.md R290; the spec says that these values are its own choice); and a reset may come at any
time, after which everything but the parameters, the undelivered input and the count of free values is as after reset. That the registry is emptied with it, and
that what the host has yet to deliver stays, are the model's choices (assumption 12). -/
def Obligations.InvHoldsAtResetAtAnyTime : Prop :=
  Inv State.reset ∧ State.reset.rsm = .idle ∧ State.reset.flen = 0 ∧ State.reset.telOut = [] ∧ State.reset.diagOut = [] ∧
    State.reset.reg = [] ∧
  ∀ (s : State) (rest : List Input), s.input = .reset :: rest →
    step s = .next { State.reset with cfg := s.cfg, input := rest, freeCount := s.freeCount } ∧
    (cfgWf s.cfg = true → Inv { State.reset with cfg := s.cfg, input := rest, freeCount := s.freeCount })

/-! The whole machine. -/

/-- Every step keeps the invariant, whatever the input: the parameters keep their shapes, the frame space and the registry their
canonical forms, the field registers are blank between steps, and in `Accumulating` the buffer begins with the sync marker and is
shorter than the frame it declares (10_state.md R21 to R25, R31, R33). -/
def Obligations.EveryStepKeepsTheInvariant : Prop :=
  ∀ s t : State, Inv s → step s = .next t → Inv t

/-- No chunk stops the machine or reaches anything but the Reassembler and the outputs (60_exceptions.md R263, 10_state.md R33,
70_reset_and_hazards.md R310): `RSM.STEP` completes on every chunk, takes it, and leaves the parameters, the registry and the host's
ports alone. -/
def Obligations.EveryChunkCompletes : Prop :=
  ∀ (s : State) (c : Bytes) (rest : List Input), Inv s → s.input = .chunk c :: rest →
    ∃ t, exec .rsmStep s = .next t ∧ step s = .next t ∧ t.input = rest ∧ SameSurroundings s t

/-- What a step puts on `TEL_OUT` (60_exceptions.md R270, R271, R272): nothing, or the two events of one record, the category first;
only a reset takes events back. Over every state. -/
def Obligations.EventsComeInPairs : Prop :=
  ∀ s t : State, step s = .next t →
    (∃ rest, s.input = .reset :: rest) ∨ t.telOut = s.telOut ∨
    ∃ r : Telegram, t.telOut =
      s.telOut ++ [⟨if r.learn = true then .learn else if r.known = true then .known else .unknown, r⟩, ⟨.data, r⟩]

/-- A decoded telegram depends on the registry only at its own originator id, and an opaque one not at all (44_erp2.md R187,
20_memory.md R62). -/
def Obligations.RecordDependsOnOneRegistryEntry : Prop :=
  ∀ (cfg : Config) (reg reg' : List RegDevice) (frame : Bytes) (r : Telegram),
    decodeFrame cfg reg frame = some r → (∀ i, r.oid = some i → regLookup reg' i = regLookup reg i) →
    decodeFrame cfg reg' frame = some r

/-- The header CRC is not fatal (43_esp3_frame.md R160, R162; 60_exceptions.md R263, R271): two frames that differ in that byte only have
records that differ only in the frame, the byte, its check, `CRC` and `HDR_CRC`, and the same category. -/
def Obligations.HeaderCrcByteChangesNothingElse : Prop :=
  ∀ (cfg : Config) (reg : List RegDevice) (front more : Bytes) (b b' : Byte) (r : Telegram),
    front.length = 5 → decodeFrame cfg reg (front ++ b :: more) = some r →
    ∃ r', decodeFrame cfg reg (front ++ b' :: more) = some r' ∧
      r' = { r with
             frame := front ++ b' :: more, crc8h := b', crc8hOk := r'.crc8hOk, crc := r'.crc, reason := r'.reason } ∧
      (r'.crc8hOk = true ↔ crc8 cfg.crc8Table (front.drop 1) = b') ∧
      (∀ q, q ≠ .hdrCrc → (q ∈ r'.reason ↔ q ∈ r.reason)) ∧ category r' = category r

/-- The reasons of a frame in the order of 60_exceptions.md R274: each CRC reason exactly when its check failed, and between them at most
one of the reasons that end the radio decode or the dispatch. -/
def Obligations.ReasonsFollowTheFixedOrder : Prop :=
  ∀ (cfg : Config) (reg : List RegDevice) (frame : Bytes) (r : Telegram), decodeFrame cfg reg frame = some r →
    ∃ one : List Reason,
      r.reason = (if r.crc8hOk then [] else [.hdrCrc]) ++ ((if r.crcsubOk = some false then [.subCrc] else []) ++
        (one ++ (if r.crc8dOk then [] else [.dataCrc]))) ∧
      one.length ≤ 1 ∧
      (∀ q ∈ one, q ∈ [Reason.ptypeUnknown, .erp1Short, .erp2Short, .erp2AcReserved, .erp2Eha, .eepAbsent, .eepUnregistered,
        .eepLength]) ∧
      (r.isOpaque = true ↔ ∃ q ∈ one, q ∈ [Reason.ptypeUnknown, .erp1Short, .erp2Short, .erp2AcReserved, .erp2Eha])

/-- An opaque record is `unknown`, names no device and keeps its data region (43_esp3_frame.md R165, 60_exceptions.md R271). -/
def Obligations.OpaqueRecordsAreUnknown : Prop :=
  ∀ (cfg : Config) (reg : List RegDevice) (frame : Bytes) (r : Telegram),
    decodeFrame cfg reg frame = some r → r.isOpaque = true →
    category r = .unknown ∧ r.oid = none ∧ r.oidw = none ∧ r.did = none ∧ r.dl = none ∧ r.dev = none ∧ r.ti = none ∧
      r.eep = none ∧ r.manuf = none ∧ r.status = none ∧ r.rpt = none ∧ r.report = ⟨[], none, false, dataBytes r⟩

/-- A 4BS telegram with bit 3 of its last byte clear is a Teach-In whatever the registry holds, and with the bit set it is data and goes
through the dispatch, in both radio protocols (30_encoding.md R96, 44_erp2.md R188, 45_erp1.md R207). -/
def Obligations.FourBsLearnBitDecidesTheTeachIn : Prop :=
  ∀ (cfg : Config) (reg : List RegDevice) (frame : Bytes) (r : Telegram) (b3 b2 b1 b0 : Byte),
    decodeFrame cfg reg frame = some r →
    (r.kind = .erp1 ∧ r.rorg = some 0xA5) ∨ (r.kind = .erp2 ∧ r.tt = some 2) →
    dlBytes r = [b3, b2, b1, b0] →
    (b0.getLsbD 3 = false → r.ti ≠ none ∧ r.learn = true ∧ category r = .learn) ∧
    (b0.getLsbD 3 = true → r.ti = none ∧ r.report = (dispatch cfg r.eep [b3, b2, b1, b0]).1)

/-! The encoding. -/

/-- Decoding an encoded operation gives it back, with every operand at every value that its encoding admits; and only the operations
that no wire bits select have no encoding (30_encoding.md R80, R83, R84, R87, R89, R92, R93, R95). -/
def Obligations.DecodeOfEncode : Prop :=
  ∀ i : Instr, i.wf = true →
    (∀ bytes, encode i = some bytes → decode i.format bytes = .ok i) ∧
    (encode i = none → i = .rsmAppend ∨ i.format ∈ [Format.func, .chunkLen, .erp1Len, .erp2Len])

/-- Encoding a decoded operation gives its key back, so no two keys of a format select the same operation with the same operands, and the
operation is well formed and of that format; of a chunk the first byte is the key (30_encoding.md R80, R84). -/
def Obligations.EncodeOfDecode : Prop :=
  ∀ (f : Format) (bytes : Bytes) (i : Instr), decode f bytes = .ok i →
    i.format = f ∧ i.wf = true ∧ encode i = some (if f = .chunk then bytes.take 1 else bytes)

/-- Some words written out from the tables of 30_encoding.md decode to the operation they stand for. -/
def Obligations.SampleWordsDecode : Prop :=
  decode .chunk [0x55] = .ok .rsmStart ∧ decode .chunk [] = .ok .rsmNop ∧ decode .esp3 [0x0A] = .ok .esp3Erp2 ∧
  decode .esp3 [0x02] = .ok (.esp3Other 0x02) ∧ decode .erp1 [0xD4] = .ok .erp1Tiute ∧
  decode .erp2Ac [0x62] = .ok (.erp2Ac3 0 2) ∧ decode .erp2Ac [0x82] = .ok (.erp2Acrsv 0 0 2) ∧
  decode .erp2Eha [0x12] = .ok (.erp2Eha 0 2) ∧ decode .erp2Eha [0x02] = .error (.noRow .erp2Eha) ∧
  decode .erp2Tt [0x62] = .ok (.erp2Tt2 3 0) ∧ decode .erp2Tt [0x0B] = .ok (.erp2Ttrsv11 0 0) ∧
  decode .eep [0xA5, 0x02, 0x05] = .ok .eepA50205 ∧ decode .eep [0xF6, 0x02, 0x04] = .ok (.eepUnknown (some 0xF60204))

end
end

