-- ==== Sys2Proof/Laws/State.lean ====
section
/-! SUPPORT. For every named update of State, what each field is after it: one lemma a field, true by unfolding. -/

namespace Sys2Proof.Machine

variable (s : State)

@[simp] theorem setFields_cfg (f : Telegram) : (s.setFields f).cfg = s.cfg := rfl
@[simp] theorem setFields_rsm (f : Telegram) : (s.setFields f).rsm = s.rsm := rfl
@[simp] theorem setFields_mem (f : Telegram) : (s.setFields f).mem = s.mem := rfl
@[simp] theorem setFields_flen (f : Telegram) : (s.setFields f).flen = s.flen := rfl
@[simp] theorem setFields_fields (f : Telegram) : (s.setFields f).fields = f := rfl
@[simp] theorem setFields_reg (f : Telegram) : (s.setFields f).reg = s.reg := rfl
@[simp] theorem setFields_regQ (f : Telegram) : (s.setFields f).regQ = s.regQ := rfl
@[simp] theorem setFields_input (f : Telegram) : (s.setFields f).input = s.input := rfl
@[simp] theorem setFields_telOut (f : Telegram) : (s.setFields f).telOut = s.telOut := rfl
@[simp] theorem setFields_diagOut (f : Telegram) : (s.setFields f).diagOut = s.diagOut := rfl
@[simp] theorem setFields_fnOut (f : Telegram) : (s.setFields f).fnOut = s.fnOut := rfl
@[simp] theorem setFields_hostOut (f : Telegram) : (s.setFields f).hostOut = s.hostOut := rfl
@[simp] theorem setFields_freeCount (f : Telegram) : (s.setFields f).freeCount = s.freeCount := rfl

@[simp] theorem takeInput_cfg : (takeInput s).cfg = s.cfg := rfl
@[simp] theorem takeInput_rsm : (takeInput s).rsm = s.rsm := rfl
@[simp] theorem takeInput_mem : (takeInput s).mem = s.mem := rfl
@[simp] theorem takeInput_flen : (takeInput s).flen = s.flen := rfl
@[simp] theorem takeInput_fields : (takeInput s).fields = s.fields := rfl
@[simp] theorem takeInput_reg : (takeInput s).reg = s.reg := rfl
@[simp] theorem takeInput_regQ : (takeInput s).regQ = s.regQ := rfl
@[simp] theorem takeInput_input : (takeInput s).input = s.input.tail := rfl
@[simp] theorem takeInput_telOut : (takeInput s).telOut = s.telOut := rfl
@[simp] theorem takeInput_diagOut : (takeInput s).diagOut = s.diagOut := rfl
@[simp] theorem takeInput_fnOut : (takeInput s).fnOut = s.fnOut := rfl
@[simp] theorem takeInput_hostOut : (takeInput s).hostOut = s.hostOut := rfl
@[simp] theorem takeInput_freeCount : (takeInput s).freeCount = s.freeCount := rfl

@[simp] theorem storeChunk_cfg (k : Nat) (c : Bytes) : (storeChunk k c s).cfg = s.cfg := rfl
@[simp] theorem storeChunk_rsm (k : Nat) (c : Bytes) : (storeChunk k c s).rsm = .accumulating := rfl
@[simp] theorem storeChunk_mem (k : Nat) (c : Bytes) : (storeChunk k c s).mem = memWriteBytes s.cfg.bufCap s.mem k c := rfl
@[simp] theorem storeChunk_flen (k : Nat) (c : Bytes) : (storeChunk k c s).flen = min (k + c.length) flenMax := rfl
@[simp] theorem storeChunk_fields (k : Nat) (c : Bytes) : (storeChunk k c s).fields = s.fields := rfl
@[simp] theorem storeChunk_reg (k : Nat) (c : Bytes) : (storeChunk k c s).reg = s.reg := rfl
@[simp] theorem storeChunk_regQ (k : Nat) (c : Bytes) : (storeChunk k c s).regQ = s.regQ := rfl
@[simp] theorem storeChunk_input (k : Nat) (c : Bytes) : (storeChunk k c s).input = s.input := rfl
@[simp] theorem storeChunk_telOut (k : Nat) (c : Bytes) : (storeChunk k c s).telOut = s.telOut := rfl
@[simp] theorem storeChunk_diagOut (k : Nat) (c : Bytes) : (storeChunk k c s).diagOut = s.diagOut := rfl
@[simp] theorem storeChunk_fnOut (k : Nat) (c : Bytes) : (storeChunk k c s).fnOut = s.fnOut := rfl
@[simp] theorem storeChunk_hostOut (k : Nat) (c : Bytes) : (storeChunk k c s).hostOut = s.hostOut := rfl
@[simp] theorem storeChunk_freeCount (k : Nat) (c : Bytes) : (storeChunk k c s).freeCount = s.freeCount := rfl

@[simp] theorem toIdle_cfg : (toIdle s).cfg = s.cfg := rfl
@[simp] theorem toIdle_rsm : (toIdle s).rsm = .idle := rfl
@[simp] theorem toIdle_mem : (toIdle s).mem = s.mem := rfl
@[simp] theorem toIdle_flen : (toIdle s).flen = 0 := rfl
@[simp] theorem toIdle_fields : (toIdle s).fields = s.fields := rfl
@[simp] theorem toIdle_reg : (toIdle s).reg = s.reg := rfl
@[simp] theorem toIdle_regQ : (toIdle s).regQ = s.regQ := rfl
@[simp] theorem toIdle_input : (toIdle s).input = s.input := rfl
@[simp] theorem toIdle_telOut : (toIdle s).telOut = s.telOut := rfl
@[simp] theorem toIdle_diagOut : (toIdle s).diagOut = s.diagOut := rfl
@[simp] theorem toIdle_fnOut : (toIdle s).fnOut = s.fnOut := rfl
@[simp] theorem toIdle_hostOut : (toIdle s).hostOut = s.hostOut := rfl
@[simp] theorem toIdle_freeCount : (toIdle s).freeCount = s.freeCount := rfl

@[simp] theorem emit_cfg (f : Telegram) : (emit s f).cfg = s.cfg := rfl
@[simp] theorem emit_rsm (f : Telegram) : (emit s f).rsm = s.rsm := rfl
@[simp] theorem emit_mem (f : Telegram) : (emit s f).mem = s.mem := rfl
@[simp] theorem emit_flen (f : Telegram) : (emit s f).flen = s.flen := rfl
@[simp] theorem emit_fields (f : Telegram) : (emit s f).fields = s.fields := rfl
@[simp] theorem emit_reg (f : Telegram) : (emit s f).reg = s.reg := rfl
@[simp] theorem emit_regQ (f : Telegram) : (emit s f).regQ = s.regQ := rfl
@[simp] theorem emit_input (f : Telegram) : (emit s f).input = s.input := rfl
@[simp] theorem emit_telOut (f : Telegram) : (emit s f).telOut = s.telOut ++ [⟨category f, f⟩, ⟨.data, f⟩] := rfl
@[simp] theorem emit_diagOut (f : Telegram) : (emit s f).diagOut = s.diagOut := rfl
@[simp] theorem emit_fnOut (f : Telegram) : (emit s f).fnOut = s.fnOut := rfl
@[simp] theorem emit_hostOut (f : Telegram) : (emit s f).hostOut = s.hostOut := rfl
@[simp] theorem emit_freeCount (f : Telegram) : (emit s f).freeCount = s.freeCount := rfl

@[simp] theorem pulse_cfg (e : DiagEvent) : (pulse s e).cfg = s.cfg := rfl
@[simp] theorem pulse_rsm (e : DiagEvent) : (pulse s e).rsm = s.rsm := rfl
@[simp] theorem pulse_mem (e : DiagEvent) : (pulse s e).mem = s.mem := rfl
@[simp] theorem pulse_flen (e : DiagEvent) : (pulse s e).flen = s.flen := rfl
@[simp] theorem pulse_fields (e : DiagEvent) : (pulse s e).fields = s.fields := rfl
@[simp] theorem pulse_reg (e : DiagEvent) : (pulse s e).reg = s.reg := rfl
@[simp] theorem pulse_regQ (e : DiagEvent) : (pulse s e).regQ = s.regQ := rfl
@[simp] theorem pulse_input (e : DiagEvent) : (pulse s e).input = s.input := rfl
@[simp] theorem pulse_telOut (e : DiagEvent) : (pulse s e).telOut = s.telOut := rfl
@[simp] theorem pulse_diagOut (e : DiagEvent) : (pulse s e).diagOut = s.diagOut ++ [e] := rfl
@[simp] theorem pulse_fnOut (e : DiagEvent) : (pulse s e).fnOut = s.fnOut := rfl
@[simp] theorem pulse_hostOut (e : DiagEvent) : (pulse s e).hostOut = s.hostOut := rfl
@[simp] theorem pulse_freeCount (e : DiagEvent) : (pulse s e).freeCount = s.freeCount := rfl

@[simp] theorem answerPort_cfg (r : FnResult) : (answerPort s r).cfg = s.cfg := rfl
@[simp] theorem answerPort_rsm (r : FnResult) : (answerPort s r).rsm = s.rsm := rfl
@[simp] theorem answerPort_mem (r : FnResult) : (answerPort s r).mem = s.mem := rfl
@[simp] theorem answerPort_flen (r : FnResult) : (answerPort s r).flen = s.flen := rfl
@[simp] theorem answerPort_fields (r : FnResult) : (answerPort s r).fields = s.fields := rfl
@[simp] theorem answerPort_reg (r : FnResult) : (answerPort s r).reg = s.reg := rfl
@[simp] theorem answerPort_regQ (r : FnResult) : (answerPort s r).regQ = s.regQ := rfl
@[simp] theorem answerPort_input (r : FnResult) : (answerPort s r).input = s.input := rfl
@[simp] theorem answerPort_telOut (r : FnResult) : (answerPort s r).telOut = s.telOut := rfl
@[simp] theorem answerPort_diagOut (r : FnResult) : (answerPort s r).diagOut = s.diagOut := rfl
@[simp] theorem answerPort_fnOut (r : FnResult) : (answerPort s r).fnOut = some r := rfl
@[simp] theorem answerPort_hostOut (r : FnResult) : (answerPort s r).hostOut = s.hostOut := rfl
@[simp] theorem answerPort_freeCount (r : FnResult) : (answerPort s r).freeCount = s.freeCount := rfl

@[simp] theorem replyHost_cfg (r : HostReply) : (replyHost s r).cfg = s.cfg := rfl
@[simp] theorem replyHost_rsm (r : HostReply) : (replyHost s r).rsm = s.rsm := rfl
@[simp] theorem replyHost_mem (r : HostReply) : (replyHost s r).mem = s.mem := rfl
@[simp] theorem replyHost_flen (r : HostReply) : (replyHost s r).flen = s.flen := rfl
@[simp] theorem replyHost_fields (r : HostReply) : (replyHost s r).fields = s.fields := rfl
@[simp] theorem replyHost_reg (r : HostReply) : (replyHost s r).reg = s.reg := rfl
@[simp] theorem replyHost_regQ (r : HostReply) : (replyHost s r).regQ = s.regQ := rfl
@[simp] theorem replyHost_input (r : HostReply) : (replyHost s r).input = s.input := rfl
@[simp] theorem replyHost_telOut (r : HostReply) : (replyHost s r).telOut = s.telOut := rfl
@[simp] theorem replyHost_diagOut (r : HostReply) : (replyHost s r).diagOut = s.diagOut := rfl
@[simp] theorem replyHost_fnOut (r : HostReply) : (replyHost s r).fnOut = s.fnOut := rfl
@[simp] theorem replyHost_hostOut (r : HostReply) : (replyHost s r).hostOut = s.hostOut ++ [r] := rfl
@[simp] theorem replyHost_freeCount (r : HostReply) : (replyHost s r).freeCount = s.freeCount := rfl

@[simp] theorem askRegistry_cfg (i : Id48) : (askRegistry s i).cfg = s.cfg := rfl
@[simp] theorem askRegistry_rsm (i : Id48) : (askRegistry s i).rsm = s.rsm := rfl
@[simp] theorem askRegistry_mem (i : Id48) : (askRegistry s i).mem = s.mem := rfl
@[simp] theorem askRegistry_flen (i : Id48) : (askRegistry s i).flen = s.flen := rfl
@[simp] theorem askRegistry_fields (i : Id48) : (askRegistry s i).fields = s.fields := rfl
@[simp] theorem askRegistry_reg (i : Id48) : (askRegistry s i).reg = s.reg := rfl
@[simp] theorem askRegistry_regQ (i : Id48) : (askRegistry s i).regQ = s.regQ ++ [i] := rfl
@[simp] theorem askRegistry_input (i : Id48) : (askRegistry s i).input = s.input := rfl
@[simp] theorem askRegistry_telOut (i : Id48) : (askRegistry s i).telOut = s.telOut := rfl
@[simp] theorem askRegistry_diagOut (i : Id48) : (askRegistry s i).diagOut = s.diagOut := rfl
@[simp] theorem askRegistry_fnOut (i : Id48) : (askRegistry s i).fnOut = s.fnOut := rfl
@[simp] theorem askRegistry_hostOut (i : Id48) : (askRegistry s i).hostOut = s.hostOut := rfl
@[simp] theorem askRegistry_freeCount (i : Id48) : (askRegistry s i).freeCount = s.freeCount := rfl

@[simp] theorem storeDevice_cfg (d : RegDevice) : (storeDevice d s).cfg = s.cfg := rfl
@[simp] theorem storeDevice_rsm (d : RegDevice) : (storeDevice d s).rsm = s.rsm := rfl
@[simp] theorem storeDevice_mem (d : RegDevice) : (storeDevice d s).mem = s.mem := rfl
@[simp] theorem storeDevice_flen (d : RegDevice) : (storeDevice d s).flen = s.flen := rfl
@[simp] theorem storeDevice_fields (d : RegDevice) : (storeDevice d s).fields = s.fields := rfl
@[simp] theorem storeDevice_reg (d : RegDevice) : (storeDevice d s).reg = regInsert d s.reg := rfl
@[simp] theorem storeDevice_regQ (d : RegDevice) : (storeDevice d s).regQ = s.regQ := rfl
@[simp] theorem storeDevice_input (d : RegDevice) : (storeDevice d s).input = s.input := rfl
@[simp] theorem storeDevice_telOut (d : RegDevice) : (storeDevice d s).telOut = s.telOut := rfl
@[simp] theorem storeDevice_diagOut (d : RegDevice) : (storeDevice d s).diagOut = s.diagOut := rfl
@[simp] theorem storeDevice_fnOut (d : RegDevice) : (storeDevice d s).fnOut = s.fnOut := rfl
@[simp] theorem storeDevice_hostOut (d : RegDevice) : (storeDevice d s).hostOut = s.hostOut ++ [.stored d] := rfl
@[simp] theorem storeDevice_freeCount (d : RegDevice) : (storeDevice d s).freeCount = s.freeCount := rfl

@[simp] theorem resetStep_cfg : (resetStep s).cfg = s.cfg := rfl
@[simp] theorem resetStep_rsm : (resetStep s).rsm = .idle := rfl
@[simp] theorem resetStep_mem : (resetStep s).mem = [] := rfl
@[simp] theorem resetStep_flen : (resetStep s).flen = 0 := rfl
@[simp] theorem resetStep_fields : (resetStep s).fields = blankTelegram := rfl
@[simp] theorem resetStep_reg : (resetStep s).reg = [] := rfl
@[simp] theorem resetStep_regQ : (resetStep s).regQ = [] := rfl
@[simp] theorem resetStep_input : (resetStep s).input = s.input := rfl
@[simp] theorem resetStep_telOut : (resetStep s).telOut = [] := rfl
@[simp] theorem resetStep_diagOut : (resetStep s).diagOut = [] := rfl
@[simp] theorem resetStep_fnOut : (resetStep s).fnOut = none := rfl
@[simp] theorem resetStep_hostOut : (resetStep s).hostOut = [] := rfl
@[simp] theorem resetStep_freeCount : (resetStep s).freeCount = s.freeCount := rfl

/-- The registers written last are the registers. -/
@[simp] theorem setFields_setFields (f g : Telegram) : (s.setFields f).setFields g = s.setFields g := rfl

/-- Writing back the registers changes nothing. -/
@[simp] theorem setFields_self : s.setFields s.fields = s := rfl

end Sys2Proof.Machine
end

