-- ==== Sys2Proof/Laws/Ops.lean ====
section
/-! SUPPORT. One lemma for each shared operation: everything it can do when it answers a next state. -/

namespace Sys2Proof.Machine

/-! Sequencing. -/

@[simp] theorem andThen_next (s : State) (k : State → Answer) : andThen (.next s) k = k s := rfl
@[simp] theorem andThen_fault (r : Fault) (k : State → Answer) : andThen (.fault r) k = .fault r := rfl
@[simp] theorem andThen_refused (r : Refusal) (k : State → Answer) : andThen (.refused r) k = .refused r := rfl

/-- A sequence answers a next state exactly when both parts do. -/
theorem andThen_eq_next (o : Answer) (k : State → Answer) (t : State) :
    andThen o k = .next t ↔ ∃ s, o = .next s ∧ k s = .next t := by
  cases o <;> simp [andThen]

/-- Sequencing is associative. -/
theorem andThen_assoc (o : Answer) (k l : State → Answer) :
    andThen (andThen o k) l = andThen o (fun s => andThen (k s) l) := by
  cases o <;> rfl

/-- An answer read from the right. -/
theorem next_iff (s t : State) : (Host.Outcome.next s : Answer) = .next t ↔ t = s :=
  ⟨fun h => (Host.Outcome.next.inj h).symm, fun h => by rw [h]⟩

/-! The field registers. -/

/-- What `degrade` writes: `REASON` and nothing else. -/
theorem degrade_eq (r : Reason) (f : Telegram) : degrade r f = { f with reason := addReason r f.reason } := rfl

/-- After `degrade` the reason is in the set. -/
theorem mem_addReason (r : Reason) (rs : List Reason) : r ∈ addReason r rs := by
  unfold addReason; split <;> simp_all

/-- `degrade` removes no reason. -/
theorem addReason_mono (r q : Reason) (rs : List Reason) (h : q ∈ rs) : q ∈ addReason r rs := by
  unfold addReason; split <;> simp_all

/-- A reason after `degrade` is the one recorded or one from before. -/
theorem mem_addReason_iff (r q : Reason) (rs : List Reason) : q ∈ addReason r rs ↔ q = r ∨ q ∈ rs := by
  unfold addReason; split
  · constructor
    · exact Or.inr
    · rintro (rfl | h) <;> assumption
  · simp [or_comm]

/-- The data region does not depend on the registers that the radio decoders write. -/
@[simp] theorem dataBytes_opaqueResult (r : Reason) (f : Telegram) : dataBytes (opaqueResult r f) = dataBytes f := rfl

/-- The data region does not depend on the registers of the header byte. -/
@[simp] theorem dataBytes_erp2Empty (f : Telegram) : dataBytes (erp2Empty f) = dataBytes f := rfl

/-- The opaque result, field by field (43_esp3_frame.md R165). -/
theorem opaqueResult_spec (r : Reason) (f : Telegram) :
    (opaqueResult r f).isOpaque = true ∧ (opaqueResult r f).learn = false ∧ (opaqueResult r f).known = false ∧
    (opaqueResult r f).report = ⟨[], none, false, dataBytes f⟩ ∧ r ∈ (opaqueResult r f).reason :=
  ⟨rfl, rfl, rfl, rfl, mem_addReason r f.reason⟩

/-! Slices. -/

/-- The length of a slice. -/
theorem bfSlice_length (bytes : Bytes) (a b : Nat) : (bfSlice bytes a b).length = min (b - a) (bytes.length - a) := by
  simp [bfSlice]

/-- The bytes of a slice. -/
theorem bfSlice_getElem? (bytes : Bytes) (a b k : Nat) (h : k < b - a) : (bfSlice bytes a b)[k]? = bytes[a + k]? := by
  simp [bfSlice, h]

/-- `B[i]` of a slice. -/
theorem byteAt_bfSlice (bytes : Bytes) (a b k : Nat) (h : k < b - a) : byteAt (bfSlice bytes a b) k = byteAt bytes (a + k) := by
  simp [byteAt, List.getD_eq_getElem?_getD, bfSlice_getElem? bytes a b k h]

/-! The bytes of `FRAME`. -/

/-- A byte that `FRAME` holds. -/
theorem frameByte_of_getElem? {frame : Bytes} {i : Nat} {b : Byte} (h : frame[i]? = some b) : frameByte frame i = b := by
  unfold frameByte; rw [h]

/-- `FRAME[off .. off+n)` has `n` bytes. -/
@[simp] theorem frameBytes_length (frame : Bytes) (off n : Nat) : (frameBytes frame off n).length = n := by
  induction n generalizing off with
  | zero => rfl
  | succ n ih => simp [frameBytes, ih]

/-- The bytes of `FRAME[off .. off+n)`, one by one. -/
theorem frameBytes_getElem? (frame : Bytes) (off n k : Nat) (h : k < n) :
    (frameBytes frame off n)[k]? = some (frameByte frame (off + k)) := by
  induction n generalizing off k with
  | zero => omega
  | succ n ih =>
    cases k with
    | zero => rfl
    | succ k =>
      rw [show off + (k + 1) = off + 1 + k by omega]
      exact ih (off + 1) k (by omega)

/-- `B[i]` of `FRAME[off .. off+n)`. -/
theorem byteAt_frameBytes (frame : Bytes) (off n k : Nat) (h : k < n) :
    byteAt (frameBytes frame off n) k = frameByte frame (off + k) := by
  simp [byteAt, List.getD_eq_getElem?_getD, frameBytes_getElem? frame off n k h]

/-- A slice of `FRAME[off .. off+n)` is a slice of `FRAME`. -/
theorem bfSlice_frameBytes (frame : Bytes) (off n a m : Nat) (h : a + m ≤ n) :
    bfSlice (frameBytes frame off n) a (a + m) = frameBytes frame (off + a) m := by
  apply List.ext_getElem?
  intro k
  by_cases hk : k < m
  · rw [bfSlice_getElem? _ _ _ _ (by omega), frameBytes_getElem? _ _ _ _ (by omega), frameBytes_getElem? _ _ _ _ hk,
      Nat.add_assoc]
  · rw [List.getElem?_eq_none (by rw [bfSlice_length, frameBytes_length]; omega), List.getElem?_eq_none (by simpa using hk)]

/-- Where `FRAME` holds all of them, the bytes are the half-open slice (00_scope.md R11). -/
theorem frameBytes_eq_bfSlice (frame : Bytes) (off n : Nat) (h : off + n ≤ frame.length) :
    frameBytes frame off n = bfSlice frame off (off + n) := by
  apply List.ext_getElem?
  intro k
  by_cases hk : k < n
  · rw [frameBytes_getElem? _ _ _ _ hk, bfSlice_getElem? _ _ _ _ (by omega)]
    have hlt : off + k < frame.length := by omega
    rw [frameByte_of_getElem? (List.getElem?_eq_getElem hlt), List.getElem?_eq_getElem hlt]
  · rw [List.getElem?_eq_none (by simpa using hk), List.getElem?_eq_none (by rw [bfSlice_length]; omega)]

/-- The bytes in the middle of a `FRAME`. -/
theorem frameBytes_append (front middle back : Bytes) :
    frameBytes (front ++ (middle ++ back)) front.length middle.length = middle := by
  rw [frameBytes_eq_bfSlice _ _ _ (by simp)]
  simp [bfSlice]

/-- The data region has the length that its slice says. -/
theorem dataBytes_length (f : Telegram) : (dataBytes f).length = f.data.len := frameBytes_length _ _ _

/-! The radio decoders. -/

/-- What an ERP1 Teach-In operation does: `TI` and `MANUF` from Data_DL, no Teach-In where none has been sliced. -/
theorem erp1Teach_eq (dec : Bytes → Option TeachIn) (s : State) :
    erp1Teach dec s =
      .next (s.setFields (setTeachIn (if s.fields.dl = none then none else dec (dlBytes s.fields)) s.fields)) := by
  unfold erp1Teach
  cases h : s.fields.dl with
  | none => rfl
  | some sl => simp [dlBytes, h]

/-- An Address Control operation always answers: a reserved value and a region that is too short degrade, any other slices the ids. -/
theorem erp2AcRow_eq (ac : BitVec 3) (s : State) :
    erp2AcRow ac s = .next (s.setFields
      (match acLookup s.cfg ac with
       | none => opaqueResult .erp2AcReserved s.fields
       | some row =>
         if acNeed row ≤ (dataBytes s.fields).length then erp2Ids (dataBytes s.fields) row s.fields
         else opaqueResult .erp2Short s.fields)) := by
  unfold erp2AcRow
  cases acLookup s.cfg ac with
  | none => rfl
  | some row => dsimp only; split <;> rfl

/-- `ERP2.SHORT` always answers; it changes nothing where the region is long enough. -/
theorem execErp2Short_eq (s : State) :
    execErp2Short s = .next (s.setFields
      (if (dataBytes s.fields).length = 0 then erp2Empty s.fields
       else if erp2IsShort s then opaqueResult .erp2Short s.fields else s.fields)) := by
  unfold execErp2Short
  split
  · rfl
  · split <;> rfl

/-- `ERP1.SHORT` always answers; it changes nothing where the region is long enough. -/
theorem execErp1Short_eq (s : State) :
    execErp1Short s =
      .next (s.setFields (if (dataBytes s.fields).length < 7 then opaqueResult .erp1Short s.fields else s.fields)) := by
  unfold execErp1Short
  split <;> rfl

/-- A Telegram Type operation always answers; it writes `RORG` and, once Data_DL is sliced, `TI` and `MANUF`. -/
theorem erp2TtRow_eq (tt : BitVec 4) (s : State) :
    erp2TtRow tt s = .next (s.setFields
      (if s.fields.dl = none then erp2Rorg s.cfg tt s.fields
       else setTeachIn (erp2TeachIn s.cfg tt (dlBytes s.fields)) (erp2Rorg s.cfg tt s.fields))) := by
  unfold erp2TtRow
  cases h : s.fields.dl with
  | none => simp [erp2Rorg, h]
  | some sl => simp [erp2Rorg, dlBytes, h]; rfl

/-- What the end of a radio decode does when its Teach-In operation answers: the id is presented once, the registers are completed. -/
theorem radioTail_eq_next (teach : State → Answer) (s t : State) :
    radioTail teach s = .next t ↔
      ∃ u, teach (askRegistry s (s.fields.oid.getD 0)) = .next u ∧
        t = u.setFields (finishRadio u.cfg (s.fields.oid.getD 0) (regLookup u.reg (s.fields.oid.getD 0)) u.fields) := by
  unfold radioTail
  simp only [andThen_eq_next, next_iff]

/-- `BIT` reads the bit (41_bitfield.md R131). -/
theorem bfBit_eq (b : Byte) (i : Nat) : bfBit b i = (b.getLsbD i).toNat := by
  rw [bfBit, ← BitVec.testBit_toNat, Nat.testBit_eq_decide_div_mod_eq, Nat.shiftRight_eq_div_pow]
  rcases Nat.mod_two_eq_zero_or_one (b.toNat / 2 ^ i) with h | h <;> rw [h] <;> rfl

/-- The 1BS Teach-In of ERP2, payload by payload (30_encoding.md R99). -/
theorem teachIn1bs_eq (p : Bytes) :
    teachIn1bs p = (match p with | [b] => if b.getLsbD 3 then none else some ⟨none, none, none⟩ | _ => none) := by
  match p with
  | [] => rfl
  | [b] =>
    show (if ([b] : Bytes).length = 1 ∧ bfBit b 3 = 0 then some (⟨none, none, none⟩ : TeachIn) else none) = _
    rw [bfBit_eq]
    dsimp only
    cases b.getLsbD 3 <;> rfl
  | b :: c :: p => simp [teachIn1bs]

/-- The value map of a teach-in report, written out (46_eep_dispatch.md R229). -/
theorem teachInValue_eq (x : TeachIn) : teachInValue x = teachInMap x := by
  obtain ⟨e, m, u⟩ := x
  cases e <;> cases m <;> cases u <;> rfl

/-- The entry of a written-out function is the first that lists the payload. -/
theorem lookupPayload_eq {α : Type} (rows : List (Bytes × α)) (others : α) (p : Bytes) :
    lookupPayload rows others p = ((rows.find? (fun r => decide (r.1 = p))).map Prod.snd).getD others := by
  induction rows with
  | nil => rfl
  | cons r rs ih =>
    by_cases h : r.1 = p
    · simp [lookupPayload, h]
    · simp [lookupPayload, h, ih]

/-- The dispatch: its four outcomes (46_eep_dispatch.md R223). -/
theorem dispatch_cases (cfg : Config) (e : Option Eep) (p : Bytes) :
    (e = none ∧ dispatch cfg e p = (unknownReport p, some .eepAbsent)) ∨
    (∃ c, e = some c ∧ profileFind cfg.profileTable c = none ∧ dispatch cfg e p = (unknownReport p, some .eepUnregistered)) ∨
    (∃ c row, e = some c ∧ profileFind cfg.profileTable c = some row ∧ p.length ≠ row.len ∧
      dispatch cfg e p = (unknownReport p, some .eepLength)) ∨
    (∃ c row, e = some c ∧ profileFind cfg.profileTable c = some row ∧ p.length = row.len ∧
      dispatch cfg e p = (profileReport cfg.valueDigits row.dec p, none)) := by
  cases e with
  | none => exact .inl ⟨rfl, rfl⟩
  | some c =>
    cases h : profileFind cfg.profileTable c with
    | none => exact .inr (.inl ⟨c, rfl, h, by simp [dispatch, h]⟩)
    | some row =>
      by_cases hl : p.length = row.len
      · exact .inr (.inr (.inr ⟨c, row, rfl, h, hl, by simp [dispatch, rowReport, h, hl]⟩))
      · exact .inr (.inr (.inl ⟨c, row, rfl, h, hl, by simp [dispatch, rowReport, h, hl]⟩))

/-- The row of a table entry: the entry's Report on its length, the Unknown Report with its reason on any other. -/
theorem rowReport_cases (digits : Nat) (row : ProfileRow) (p : Bytes) :
    (p.length = row.len ∧ rowReport digits row p = (profileReport digits row.dec p, none)) ∨
    (p.length ≠ row.len ∧ rowReport digits row p = (unknownReport p, some .eepLength)) := by
  by_cases h : p.length = row.len
  · exact .inl ⟨h, if_pos h⟩
  · exact .inr ⟨h, if_neg h⟩

/-- What a row of the dispatch does once Data_DL has been sliced: `REPORT`, and `REASON` where it degrades. -/
theorem runRow_some (row : Bytes → Report × Option Reason) (absent : Option Reason) (s : State) (sl : Slice)
    (h : s.fields.dl = some sl) :
    runRow row absent s = s.setFields (setReport (row (dlBytes s.fields)).1 (row (dlBytes s.fields)).2 s.fields) := by
  unfold runRow; rw [h]

/-- What a row of the dispatch does where no Data_DL has been sliced: the Unknown Report with free `raw` bytes. -/
theorem runRow_none (row : Bytes → Report × Option Reason) (absent : Option Reason) (s : State) (h : s.fields.dl = none) :
    runRow row absent s =
      { s with
        fields := setReport (unknownReport (Config.absentPayload s.freeCount)) absent s.fields
        freeCount := s.freeCount + 1 } := by
  unfold runRow; rw [h]

/-! The Reassembler. -/

/-- What the hand-off of a frame does when the frame decoder answers: the registers are blank again and the Reassembler is idle. -/
theorem handOff_eq_next (frame : Bytes) (s t : State) :
    handOff frame s = .next t ↔
      ∃ u, execEsp3Decode (s.setFields { blankTelegram with frame := frame }) = .next u ∧
        t = toIdle (u.setFields blankTelegram) := by
  unfold handOff
  simp only [andThen_eq_next, next_iff]

/-- A comparison with `VLEN` where the buffer holds the lengths. -/
theorem withVlen_some (s : State) (short : Answer) (k : Nat → Answer) (v : Nat) (h6 : 6 < s.flen) (hv : vlen s = some v) :
    withVlen s short k = k v := by
  unfold withVlen; rw [if_pos h6, hv]

/-- A comparison with `VLEN` while `FLEN <= 6`: there is none. -/
theorem withVlen_short (s : State) (short : Answer) (k : Nat → Answer) (h6 : s.flen ≤ 6) : withVlen s short k = short :=
  if_neg (by omega)

/-- What the length test does: it waits, emits or discards (42_reassembler.md R141). -/
theorem lengthTest_cases (s : State) :
    (s.flen ≤ 6 ∧ lengthTest s = execRsmWait s) ∨
    (6 < s.flen ∧ vlen s = none ∧ lengthTest s = .fault (.frameSpace 0)) ∨
    ∃ v, 6 < s.flen ∧ vlen s = some v ∧
      ((s.flen = v ∧ lengthTest s = execRsmEmit s) ∨ (v < s.flen ∧ lengthTest s = execRsmOverrun s) ∨
       (s.flen < v ∧ lengthTest s = execRsmWait s)) := by
  by_cases h6 : 6 < s.flen
  · cases hv : vlen s with
    | none => exact .inr (.inl ⟨h6, rfl, by simp [lengthTest, withVlen, h6, hv]⟩)
    | some v =>
      refine .inr (.inr ⟨v, h6, rfl, ?_⟩)
      have key := withVlen_some s (execRsmWait s)
        (fun v => if s.flen = v then execRsmEmit s else if v < s.flen then execRsmOverrun s else execRsmWait s) v h6 hv
      rcases Nat.lt_trichotomy s.flen v with h | h | h
      · exact .inr (.inr ⟨h, key.trans (by rw [if_neg (by omega), if_neg (by omega)])⟩)
      · exact .inl ⟨h, key.trans (if_pos h)⟩
      · exact .inr (.inl ⟨h, key.trans (by rw [if_neg (by omega), if_pos h])⟩)
  · exact .inl ⟨by omega, withVlen_short s _ _ (by omega)⟩

/-- What `RSM.STEP` does on an offered chunk: the `CHUNK` row, then the length test after an append (42_reassembler.md R141). -/
theorem execRsmStep_eq (s : State) (c : Bytes) (h : offeredChunk s = some c) :
    execRsmStep s =
      match c.head?, s.rsm with
      | none, _ => execRsmNop s
      | some b, .idle => if b = syncMarker then andThen (execRsmStart s) lengthTest else execRsmDrop b s
      | some _, .accumulating => andThen (execRsmAppend s) lengthTest := by
  unfold execRsmStep
  generalize offeredChunk s = o at h
  subst h
  rfl

/-- A function port that answers leaves the registers as they were (10_state.md R39). -/
theorem portStep_eq_next (i : Instr) (s t : State) :
    portStep i s = .next t ↔ isPort i = true ∧ ∃ u, exec i s = .next u ∧ t = u.setFields s.fields := by
  unfold portStep
  split
  · rename_i h
    simp only [andThen_eq_next, next_iff, h, true_and]
  · rename_i h
    simp [h]

/-- What a step does, by the next input. -/
theorem step_eq (s : State) :
    step s =
      match s.input with
      | [] => .next s
      | .chunk _ :: _ => execRsmStep s
      | .port i :: _ => portStep i (takeInput s)
      | .teach req :: _ => .next (teach req (takeInput s))
      | .rename id name :: _ => .next (rename id name (takeInput s))
      | .get id :: _ => .next (getDevice id (takeInput s))
      | .getAll :: _ => .next (getAll (takeInput s))
      | .reset :: _ => .next (resetStep (takeInput s)) := rfl

end Sys2Proof.Machine
end

