-- ==== Sys2Proof/Laws/Local.lean ====
section
/-! SUPPORT. The operations of a frame decode up to `ESP3.MERGE` are local: each answers a next state, what it writes depends on the
parameters, the registry and the field registers alone, and the next state differs in the field registers and in the ids asked for
only. -/

namespace Sys2Proof.Machine

/-- Two states that agree in what an operation of a frame decode may read. -/
def SameView (s s' : State) : Prop := s'.cfg = s.cfg ∧ s'.reg = s.reg ∧ s'.fields = s.fields

/-- The next state of a local operation: new field registers, and the ids it asked the registry for. -/
def localNext (f : Telegram) (q : List Id48) (s : State) : State := { s with fields := f, regQ := s.regQ ++ q }

@[simp] theorem localNext_cfg (f : Telegram) (q : List Id48) (s : State) : (localNext f q s).cfg = s.cfg := rfl
@[simp] theorem localNext_reg (f : Telegram) (q : List Id48) (s : State) : (localNext f q s).reg = s.reg := rfl
@[simp] theorem localNext_fields (f : Telegram) (q : List Id48) (s : State) : (localNext f q s).fields = f := rfl

theorem localNext_localNext (f g : Telegram) (q r : List Id48) (s : State) :
    localNext g r (localNext f q s) = localNext g (q ++ r) s := by
  simp [localNext]

/-- Writing the field registers is the local next state without a question. -/
theorem setFields_eq_localNext (s : State) (f : Telegram) : s.setFields f = localNext f [] s := by
  simp [localNext, State.setFields]

/-- A local operation. -/
def LocalOp (op : State → Answer) : Prop := ∀ s, ∃ f q, ∀ s', SameView s s' → op s' = .next (localNext f q s')

theorem SameView.refl (s : State) : SameView s s := ⟨rfl, rfl, rfl⟩

theorem SameView.localNext {s s' : State} (h : SameView s s') (f : Telegram) (q : List Id48) :
    SameView (localNext f q s) (localNext f q s') := ⟨h.1, h.2.1, rfl⟩

/-- A local operation answers a next state. -/
theorem LocalOp.runs {op : State → Answer} (h : LocalOp op) (s : State) : ∃ f q, op s = .next (Machine.localNext f q s) := by
  obtain ⟨f, q, h⟩ := h s
  exact ⟨f, q, h s (.refl s)⟩

/-- An operation that writes the field registers by a function of what it may read. -/
theorem LocalOp.ofFields (g : Config → List RegDevice → Telegram → Telegram) :
    LocalOp fun s => .next (s.setFields (g s.cfg s.reg s.fields)) := by
  intro s
  refine ⟨g s.cfg s.reg s.fields, [], fun s' h => ?_⟩
  beta_reduce
  rw [setFields_eq_localNext, h.1, h.2.1, h.2.2]

/-- Sequencing keeps locality. -/
theorem LocalOp.andThen {op k : State → Answer} (ho : LocalOp op) (hk : LocalOp k) : LocalOp fun s => Machine.andThen (op s) k := by
  intro s
  obtain ⟨f, q, h⟩ := ho s
  obtain ⟨f', q', h'⟩ := hk (Machine.localNext f q s)
  refine ⟨f', q ++ q', fun s' hv => ?_⟩
  beta_reduce
  rw [h s' hv, andThen_next, h' _ (hv.localNext f q), localNext_localNext]

/-- A choice on what an operation may read keeps locality. -/
theorem LocalOp.cond (p : Config → Telegram → Prop) [∀ c f, Decidable (p c f)] {op k : State → Answer}
    (ho : LocalOp op) (hk : LocalOp k) : LocalOp fun s => if p s.cfg s.fields then op s else k s := by
  intro s
  by_cases hp : p s.cfg s.fields
  · obtain ⟨f, q, h⟩ := ho s
    exact ⟨f, q, fun s' hv => by beta_reduce; rw [hv.1, hv.2.2, if_pos hp, h s' hv]⟩
  · obtain ⟨f, q, h⟩ := hk s
    exact ⟨f, q, fun s' hv => by beta_reduce; rw [hv.1, hv.2.2, if_neg hp, h s' hv]⟩

/-- An operation chosen by what it may read is local where each choice is. -/
theorem LocalOp.param {α : Type} (a : Config → Telegram → α) {op : α → State → Answer} (ho : ∀ x, LocalOp (op x)) :
    LocalOp fun s => op (a s.cfg s.fields) s := by
  intro s
  obtain ⟨f, q, h⟩ := ho (a s.cfg s.fields) s
  exact ⟨f, q, fun s' hv => by beta_reduce; rw [hv.1, hv.2.2, h s' hv]⟩

/-- An operation that answers as a local one does is local. -/
theorem LocalOp.congr {op k : State → Answer} (hk : LocalOp k) (h : ∀ s, op s = k s) : LocalOp op := by
  rw [show op = k from funext h]
  exact hk

/-! The radio decoders. -/

theorem erp1Short_local : LocalOp execErp1Short :=
  (LocalOp.ofFields fun _ _ f => if (dataBytes f).length < 7 then opaqueResult .erp1Short f else f).congr execErp1Short_eq

theorem erp1Fields_local : LocalOp execErp1Fields :=
  LocalOp.cond (fun _ f => 7 ≤ (dataBytes f).length) (LocalOp.ofFields fun _ _ f => erp1Slices (dataBytes f) f)
    (LocalOp.ofFields fun _ _ f => opaqueResult .erp1Short f)

/-- A Teach-In operation whose decoder depends on the parameters alone is local. -/
theorem erp1Teach_local (dec : Config → Bytes → Option TeachIn) : LocalOp fun s => erp1Teach (dec s.cfg) s :=
  LocalOp.ofFields fun c _ f => setTeachIn ((f.dl.map (sliceBytes f)).bind (dec c)) f

theorem erp1TeachRow_local (rorg : Byte) : LocalOp (erp1TeachRow rorg) := by
  unfold erp1TeachRow
  refine LocalOp.cond (fun _ _ => rorg = rorg4bs) (erp1Teach_local fun c => teachIn4bs c.teachin4bs) ?_
  refine LocalOp.cond (fun _ _ => rorg = rorgUte) (erp1Teach_local fun c => teachInUte c.teachinUte) ?_
  exact LocalOp.cond (fun _ _ => rorg = rorg1bs) (erp1Teach_local fun _ _ => none) (erp1Teach_local fun _ _ => none)

theorem askRegistry_eq (s : State) (id : Id48) : askRegistry s id = localNext s.fields [id] s := rfl

/-- The end of a radio decode is local where the Teach-In operation is. -/
theorem radioTail_local {teach : State → Answer} (h : LocalOp teach) : LocalOp (radioTail teach) := by
  intro s
  have hfin : ∀ id : Id48, LocalOp fun t => .next (t.setFields (finishRadio t.cfg id (regLookup t.reg id) t.fields)) :=
    fun id => LocalOp.ofFields fun c r f => finishRadio c id (regLookup r id) f
  obtain ⟨f, q, h'⟩ := LocalOp.andThen h (hfin (s.fields.oid.getD 0)) (askRegistry s (s.fields.oid.getD 0))
  refine ⟨f, [s.fields.oid.getD 0] ++ q, fun s' hv => ?_⟩
  have := h' (askRegistry s' (s.fields.oid.getD 0)) ⟨hv.1, hv.2.1, hv.2.2⟩
  rw [askRegistry_eq, localNext_localNext] at this
  simp only [radioTail, hv.2.2]
  exact this

/-- `ERP1.DECODE` is local. -/
theorem erp1Decode_local : LocalOp execErp1Decode := by
  have h : LocalOp fun s0 => if (dataBytes s0.fields).length < 7 then execErp1Short s0
      else andThen (execErp1Fields s0) fun s1 => radioTail (erp1TeachRow (byteAt (dataBytes s1.fields) 0)) s1 :=
    LocalOp.cond (fun _ f => (dataBytes f).length < 7) erp1Short_local
      (erp1Fields_local.andThen
        (LocalOp.param (fun _ f => byteAt (dataBytes f) 0) (op := fun b => radioTail (erp1TeachRow b))
          fun b => radioTail_local (erp1TeachRow_local b)))
  intro s
  have hset := LocalOp.andThen (LocalOp.ofFields fun _ _ f => { f with crcsubOk := none }) h
  exact hset s

theorem erp2Subcrc_local : LocalOp execErp2Subcrc :=
  LocalOp.ofFields fun c _ f =>
    { (if subCrcOk c.crc8Table (dataBytes f) then f else degrade .subCrc f) with
      crcsubOk := some (subCrcOk c.crc8Table (dataBytes f)) }

theorem erp2Hdrbyte_local : LocalOp execErp2Hdrbyte :=
  LocalOp.cond (fun _ f => 1 ≤ (dataBytes f).length)
    (LocalOp.ofFields fun _ _ f =>
      { f with
        ac := some (headerAc (byteAt (dataBytes f) 0))
        eha := some (headerEha (byteAt (dataBytes f) 0))
        tt := some (headerTt (byteAt (dataBytes f) 0)) })
    (LocalOp.ofFields fun _ _ f => erp2Empty f)

theorem erp2AcRow_local (ac : BitVec 3) : LocalOp (erp2AcRow ac) :=
  (LocalOp.ofFields fun c _ f =>
    match acLookup c ac with
    | none => opaqueResult .erp2AcReserved f
    | some row =>
      if acNeed row ≤ (dataBytes f).length then erp2Ids (dataBytes f) row f
      else opaqueResult .erp2Short f).congr (erp2AcRow_eq ac)

theorem erp2TtRow_local (tt : BitVec 4) : LocalOp (erp2TtRow tt) :=
  (LocalOp.ofFields fun c _ f =>
    if f.dl = none then erp2Rorg c tt f else setTeachIn (erp2TeachIn c tt (dlBytes f)) (erp2Rorg c tt f)).congr (erp2TtRow_eq tt)

theorem erp2Eha_local (ac : BitVec 3) (tt : BitVec 4) : LocalOp (execErp2Eha ac tt) :=
  LocalOp.ofFields fun _ _ f => opaqueResult .erp2Eha f

theorem erp2Short_local : LocalOp execErp2Short :=
  (LocalOp.ofFields fun c _ f =>
    if (dataBytes f).length = 0 then erp2Empty f
    else if (match f.ac.bind (acLookup c) with
      | none => false
      | some row => decide ((dataBytes f).length < acNeed row)) = true then opaqueResult .erp2Short f
    else f).congr execErp2Short_eq

theorem erp2Body_local (h : Byte) : LocalOp (erp2Body h) := by
  have hrow : ∀ row : AcRow, LocalOp fun s =>
      if headerEha h = 1 then execErp2Eha (headerAc h) (headerTt h) s
      else if (dataBytes s.fields).length < acNeed row then execErp2Short s
      else andThen (erp2AcRow (headerAc h) s) fun t =>
        radioTail (erp2TtRow (headerTt h)) (t.setFields (erp2Dl (dataBytes t.fields).length row t.fields)) := by
    intro row
    refine LocalOp.cond (fun _ _ => headerEha h = 1) (erp2Eha_local _ _) ?_
    refine LocalOp.cond (fun _ f => (dataBytes f).length < acNeed row) erp2Short_local ?_
    refine (erp2AcRow_local _).andThen ?_
    intro s
    exact LocalOp.andThen (LocalOp.ofFields fun _ _ f => erp2Dl (dataBytes f).length row f)
      (radioTail_local (erp2TtRow_local (headerTt h))) s
  have hall := LocalOp.param (fun c _ => acLookup c (headerAc h))
    (op := fun o s => match o with
      | none => erp2AcRow (headerAc h) s
      | some row =>
        if headerEha h = 1 then execErp2Eha (headerAc h) (headerTt h) s
        else if (dataBytes s.fields).length < acNeed row then execErp2Short s
        else andThen (erp2AcRow (headerAc h) s) fun t =>
          radioTail (erp2TtRow (headerTt h)) (t.setFields (erp2Dl (dataBytes t.fields).length row t.fields)))
    fun o => match o with
      | none => erp2AcRow_local _
      | some row => hrow row
  intro s
  exact hall s

/-- `ERP2.DECODE` is local. -/
theorem erp2Decode_local : LocalOp execErp2Decode := by
  refine erp2Subcrc_local.andThen ?_
  refine LocalOp.cond (fun _ f => (dataBytes f).length = 0) erp2Short_local ?_
  refine erp2Hdrbyte_local.andThen ?_
  exact LocalOp.param (fun _ f => byteAt (dataBytes f) 0)
    (op := fun b s => erp2Body b (s.setFields (erp2Rorg s.cfg (headerTt b) s.fields)))
    fun b => LocalOp.andThen (LocalOp.ofFields fun c _ f => erp2Rorg c (headerTt b) f) (erp2Body_local b)

end Sys2Proof.Machine
end

