-- ==== Sys2Proof/Laws/Frame.lean ====
section
/-! SUPPORT. A frame decode always completes: it writes the field registers, keeps `FRAME`, asks the registry and emits the record's two
events. -/

namespace Sys2Proof.Machine

/-- The registers that the radio decoders do not write. -/
def headerOf (f : Telegram) : Bytes × BitVec 16 × Byte × Byte × Byte × Bool × Slice :=
  (f.frame, f.dlen, f.olen, f.ptype, f.crc8h, f.crc8hOk, f.data)

@[simp] theorem headerOf_degrade (r : Reason) (f : Telegram) : headerOf (degrade r f) = headerOf f := rfl
@[simp] theorem headerOf_opaqueResult (r : Reason) (f : Telegram) : headerOf (opaqueResult r f) = headerOf f := rfl
@[simp] theorem headerOf_erp2Empty (f : Telegram) : headerOf (erp2Empty f) = headerOf f := rfl
@[simp] theorem headerOf_setTeachIn (ti : Option TeachIn) (f : Telegram) : headerOf (setTeachIn ti f) = headerOf f := rfl
@[simp] theorem headerOf_erp1Slices (d : Bytes) (f : Telegram) : headerOf (erp1Slices d f) = headerOf f := rfl
@[simp] theorem headerOf_erp2Ids (d : Bytes) (row : AcRow) (f : Telegram) : headerOf (erp2Ids d row f) = headerOf f := rfl
@[simp] theorem headerOf_erp2Dl (n : Nat) (row : AcRow) (f : Telegram) : headerOf (erp2Dl n row f) = headerOf f := rfl
@[simp] theorem headerOf_erp2Rorg (c : Config) (tt : BitVec 4) (f : Telegram) : headerOf (erp2Rorg c tt f) = headerOf f := rfl
@[simp] theorem headerOf_resolveEep (d : Option RegDevice) (f : Telegram) : headerOf (resolveEep d f) = headerOf f := rfl
@[simp] theorem headerOf_resolveDevice (i : Id48) (d : Option RegDevice) (f : Telegram) : headerOf (resolveDevice i d f) = headerOf f := rfl
@[simp] theorem headerOf_setKnown (c : Config) (f : Telegram) : headerOf (setKnown c f) = headerOf f := rfl

@[simp] theorem headerOf_payloadMessage (c : Config) (f : Telegram) : headerOf (payloadMessage c f) = headerOf f := by
  unfold payloadMessage
  cases f.ti with
  | some ti => rfl
  | none => rcases h : dispatch c f.eep (dlBytes f) with ⟨r, _ | w⟩ <;> rfl

@[simp] theorem headerOf_finishRadio (c : Config) (i : Id48) (d : Option RegDevice) (f : Telegram) :
    headerOf (finishRadio c i d f) = headerOf f := by
  simp [finishRadio]

/-- The data region depends on the frame and its slice alone. -/
theorem dataBytes_congr (f g : Telegram) (h : headerOf f = headerOf g) : dataBytes f = dataBytes g := by
  simp only [headerOf, Prod.mk.injEq] at h
  simp [dataBytes, sliceBytes, h]

/-- An operation that does not write the registers which `proj` reads. -/
def Keeps {α : Type} (proj : Telegram → α) (op : State → Answer) : Prop := ∀ s t, op s = .next t → proj t.fields = proj s.fields

/-- An operation that writes the field registers by a function that keeps them. -/
theorem Keeps.write {α : Type} {proj : Telegram → α} (g : State → Telegram) (h : ∀ s, proj (g s) = proj s.fields) :
    Keeps proj fun s => .next (s.setFields (g s)) := by
  intro s t ht
  obtain rfl := Host.Outcome.next.inj ht
  exact h s

theorem Keeps.andThen {α : Type} {proj : Telegram → α} {op k : State → Answer} (ho : Keeps proj op) (hk : Keeps proj k) :
    Keeps proj fun s => Machine.andThen (op s) k := by
  intro s t ht
  obtain ⟨u, hu, hk'⟩ := (andThen_eq_next _ _ _).1 ht
  exact (hk u t hk').trans (ho s u hu)

theorem Keeps.cond {α : Type} {proj : Telegram → α} (p : State → Prop) [DecidablePred p] {op k : State → Answer}
    (ho : Keeps proj op) (hk : Keeps proj k) : Keeps proj fun s => if p s then op s else k s := by
  intro s t ht
  by_cases h : p s
  · exact ho s t ((if_pos h).symm.trans ht)
  · exact hk s t ((if_neg h).symm.trans ht)

theorem Keeps.param {α β : Type} {proj : Telegram → α} (a : State → β) {op : β → State → Answer} (ho : ∀ x, Keeps proj (op x)) :
    Keeps proj fun s => op (a s) s := fun s t ht => ho (a s) s t ht

theorem Keeps.congr {α : Type} {proj : Telegram → α} {op k : State → Answer} (hk : Keeps proj k) (h : ∀ s, op s = k s) :
    Keeps proj op := by
  rw [show op = k from funext h]
  exact hk

/-! The radio decoders keep the header registers. -/

/-- The end of a radio decode keeps them where the Teach-In operation does. -/
theorem radioTail_keeps {teach : State → Answer} (h : Keeps headerOf teach) : Keeps headerOf (radioTail teach) := by
  intro s t ht
  obtain ⟨u, hu, rfl⟩ := (radioTail_eq_next teach s t).1 ht
  exact (headerOf_finishRadio _ _ _ _).trans ((h (askRegistry s (s.fields.oid.getD 0)) u hu).trans rfl)

theorem erp1TeachRow_keeps (rorg : Byte) : Keeps headerOf (erp1TeachRow rorg) := by
  have h (dec : Config → Bytes → Option TeachIn) : Keeps headerOf fun s => erp1Teach (dec s.cfg) s :=
    Keeps.write (fun s => setTeachIn ((s.fields.dl.map (sliceBytes s.fields)).bind (dec s.cfg)) s.fields) fun _ => rfl
  unfold erp1TeachRow
  refine Keeps.cond (fun _ => rorg = rorg4bs) (h fun c => teachIn4bs c.teachin4bs) ?_
  refine Keeps.cond (fun _ => rorg = rorgUte) (h fun c => teachInUte c.teachinUte) ?_
  exact Keeps.cond (fun _ => rorg = rorg1bs) (h fun _ _ => none) (h fun _ _ => none)

theorem erp1Short_keeps : Keeps headerOf execErp1Short :=
  (Keeps.write (fun s => if (dataBytes s.fields).length < 7 then opaqueResult .erp1Short s.fields else s.fields)
    fun s => by split <;> rfl).congr execErp1Short_eq

/-- `ERP1.DECODE` (45_erp1.md R200). -/
theorem erp1Decode_keeps : Keeps headerOf execErp1Decode := by
  have hfields : Keeps headerOf execErp1Fields :=
    Keeps.cond (fun s => 7 ≤ (dataBytes s.fields).length) (Keeps.write (fun s => erp1Slices (dataBytes s.fields) s.fields) fun _ => rfl)
      (Keeps.write (fun s => opaqueResult .erp1Short s.fields) fun _ => rfl)
  have hrest : Keeps headerOf fun s0 => if (dataBytes s0.fields).length < 7 then execErp1Short s0
      else andThen (execErp1Fields s0) fun s1 => radioTail (erp1TeachRow (byteAt (dataBytes s1.fields) 0)) s1 :=
    Keeps.cond (fun s0 => (dataBytes s0.fields).length < 7) erp1Short_keeps
      (hfields.andThen (Keeps.param (fun s1 => byteAt (dataBytes s1.fields) 0) (op := fun b => radioTail (erp1TeachRow b))
        fun b => radioTail_keeps (erp1TeachRow_keeps b)))
  exact fun s t ht => (hrest _ _ ht).trans rfl

theorem erp2Short_keeps : Keeps headerOf execErp2Short :=
  (Keeps.write (fun s => if (dataBytes s.fields).length = 0 then erp2Empty s.fields
      else if erp2IsShort s then opaqueResult .erp2Short s.fields else s.fields)
    fun s => by split; rfl; split <;> rfl).congr execErp2Short_eq

theorem erp2AcRow_keeps (ac : BitVec 3) : Keeps headerOf (erp2AcRow ac) := by
  intro s t ht
  rw [erp2AcRow_eq] at ht
  obtain rfl := Host.Outcome.next.inj ht
  show headerOf (match acLookup s.cfg ac with | none => _ | some row => _) = _
  cases acLookup s.cfg ac with
  | none => rfl
  | some row => dsimp only; split <;> rfl

theorem erp2TtRow_keeps (tt : BitVec 4) : Keeps headerOf (erp2TtRow tt) :=
  (Keeps.write (fun s => if s.fields.dl = none then erp2Rorg s.cfg tt s.fields
      else setTeachIn (erp2TeachIn s.cfg tt (dlBytes s.fields)) (erp2Rorg s.cfg tt s.fields))
    fun s => by split <;> rfl).congr (erp2TtRow_eq tt)

theorem erp2Body_keeps (h : Byte) : Keeps headerOf (erp2Body h) := by
  intro s t ht
  unfold erp2Body at ht
  split at ht
  · exact erp2AcRow_keeps _ s t ht
  · rename_i row _
    have hslice : Keeps headerOf fun s => andThen (erp2AcRow (headerAc h) s) fun t =>
        radioTail (erp2TtRow (headerTt h)) (t.setFields (erp2Dl (dataBytes t.fields).length row t.fields)) :=
      (erp2AcRow_keeps _).andThen fun u v hv => (radioTail_keeps (erp2TtRow_keeps _) _ v hv).trans rfl
    split at ht
    · exact Keeps.write (fun s => opaqueResult .erp2Eha s.fields) (fun _ => rfl) s t ht
    · split at ht
      · exact erp2Short_keeps s t ht
      · exact hslice s t ht

/-- `ERP2.DECODE` (44_erp2.md R180). -/
theorem erp2Decode_keeps : Keeps headerOf execErp2Decode := by
  have hsub : Keeps headerOf execErp2Subcrc :=
    Keeps.write (fun s => { (if subCrcOk s.cfg.crc8Table (dataBytes s.fields) then s.fields else degrade .subCrc s.fields) with
      crcsubOk := some (subCrcOk s.cfg.crc8Table (dataBytes s.fields)) }) fun s => by split <;> rfl
  have hhdr : Keeps headerOf execErp2Hdrbyte :=
    Keeps.cond (fun s => 1 ≤ (dataBytes s.fields).length)
      (Keeps.write (fun s => { s.fields with
        ac := some (headerAc (byteAt (dataBytes s.fields) 0))
        eha := some (headerEha (byteAt (dataBytes s.fields) 0))
        tt := some (headerTt (byteAt (dataBytes s.fields) 0)) }) fun _ => rfl)
      (Keeps.write (fun s => erp2Empty s.fields) fun _ => rfl)
  refine hsub.andThen (Keeps.cond (fun s1 => (dataBytes s1.fields).length = 0) erp2Short_keeps (hhdr.andThen ?_))
  exact Keeps.param (fun s2 => byteAt (dataBytes s2.fields) 0)
    (op := fun b s2 => erp2Body b (s2.setFields (erp2Rorg s2.cfg (headerTt b) s2.fields)))
    fun b => Keeps.andThen (Keeps.write (fun s => erp2Rorg s.cfg (headerTt b) s.fields) fun _ => rfl) (erp2Body_keeps b)

/-! The frame decoder. -/

/-- The steps of `ESP3.DECODE` before `ESP3.MERGE`. -/
def decodeSteps (s : State) : Answer :=
  andThen (execEsp3Hdr s) fun s2 =>
  andThen (execEsp3Crc8h s2) fun s3 =>
  andThen (esp3Row s3.fields.ptype s3) fun s4 =>
  andThen (if s4.fields.olen ≠ 0 then execEsp3Opt s4
           else .next (s4.setFields { s4.fields with opt := ⟨6 + s4.fields.dlen.toNat, 0⟩, dbm := none })) fun s5 =>
  execEsp3Crc8d s5

/-- The registers that `ESP3.HDR` writes, from `FRAME`. -/
def hdrFields (c : Config) (f : Telegram) : Telegram :=
  { f with
    dlen := BitVec.ofNat 16 (bfU16 c.lenOrder (frameBytes f.frame 0 6) 1)
    olen := frameByte f.frame 3
    ptype := frameByte f.frame 4
    crc8h := frameByte f.frame 5 }

/-- What `ESP3.CRC8H` writes. -/
def crc8hFields (c : Config) (f : Telegram) : Telegram :=
  { (if crc8Ok c.crc8Table (frameByte f.frame 5) (frameBytes f.frame 1 4) then f else degrade .hdrCrc f) with
    crc8hOk := crc8Ok c.crc8Table (frameByte f.frame 5) (frameBytes f.frame 1 4) }

/-- What `ESP3.OTHER` writes. -/
def otherFields (f : Telegram) : Telegram := opaqueResult .ptypeUnknown { selectData .other f with crcsubOk := none }

/-- What `ESP3.OPT` writes. -/
def optFields (c : Config) (f : Telegram) : Telegram :=
  { f with
    opt := ⟨6 + f.dlen.toNat, f.olen.toNat⟩
    dbm := dbmOf c.optTable f.ptype (optBytes { f with opt := ⟨6 + f.dlen.toNat, f.olen.toNat⟩ }) }

/-- What `ESP3.CRC8D` writes. -/
def crc8dFields (c : Config) (f : Telegram) : Telegram :=
  { (if crc8Ok c.crc8Table (frameByte f.frame (6 + (f.dlen.toNat + f.olen.toNat)))
        (frameBytes f.frame 6 (f.dlen.toNat + f.olen.toNat)) then f else degrade .dataCrc f) with
    crc8d := frameByte f.frame (6 + (f.dlen.toNat + f.olen.toNat))
    crc8dOk := crc8Ok c.crc8Table (frameByte f.frame (6 + (f.dlen.toNat + f.olen.toNat)))
      (frameBytes f.frame 6 (f.dlen.toNat + f.olen.toNat)) }

/-! Each step completes on every state. -/

theorem execEsp3Hdr_eq (s : State) : execEsp3Hdr s = .next (s.setFields (hdrFields s.cfg s.fields)) := rfl
theorem execEsp3Crc8h_eq (s : State) : execEsp3Crc8h s = .next (s.setFields (crc8hFields s.cfg s.fields)) := rfl
theorem execEsp3Other_eq (p : Byte) (s : State) : execEsp3Other p s = .next (s.setFields (otherFields s.fields)) := rfl
theorem execEsp3Opt_eq (s : State) : execEsp3Opt s = .next (s.setFields (optFields s.cfg s.fields)) := rfl
theorem execEsp3Crc8d_eq (s : State) : execEsp3Crc8d s = .next (s.setFields (crc8dFields s.cfg s.fields)) := rfl

/-- `ESP3.ERP1` and `ESP3.ERP2` are local where their decoder is. -/
theorem selectData_local {op : State → Answer} (k : Kind) (ho : LocalOp op) : LocalOp fun s => op (s.setFields (selectData k s.fields)) :=
  fun s => LocalOp.andThen (LocalOp.ofFields fun _ _ f => selectData k f) ho s

/-- The steps before `ESP3.MERGE` are local. -/
theorem decodeSteps_local : LocalOp decodeSteps := by
  have hrow (p : Byte) : LocalOp (esp3Row p) := by
    unfold esp3Row
    refine LocalOp.cond (fun _ _ => p = ptypeErp2) (selectData_local .erp2 erp2Decode_local) ?_
    refine LocalOp.cond (fun _ _ => p = ptypeErp1) (selectData_local .erp1 erp1Decode_local) ?_
    exact LocalOp.ofFields fun _ _ f => otherFields f
  refine (LocalOp.ofFields fun c _ f => hdrFields c f).andThen ((LocalOp.ofFields fun c _ f => crc8hFields c f).andThen ?_)
  refine LocalOp.andThen (LocalOp.param (fun _ f => f.ptype) hrow) ?_
  refine LocalOp.andThen ?_ (LocalOp.ofFields fun c _ f => crc8dFields c f)
  exact LocalOp.cond (fun _ f => f.olen ≠ 0) (LocalOp.ofFields fun c _ f => optFields c f)
    (LocalOp.ofFields fun _ _ f => { f with opt := ⟨6 + f.dlen.toNat, 0⟩, dbm := none })

/-- The steps before `ESP3.MERGE` keep `FRAME`. -/
theorem decodeSteps_keeps : Keeps Telegram.frame decodeSteps := by
  have hradio {op : State → Answer} (k : Kind) (h : Keeps headerOf op) :
      Keeps Telegram.frame fun s => op (s.setFields (selectData k s.fields)) :=
    fun s t ht => congrArg Prod.fst (h _ _ ht)
  have hrow (p : Byte) : Keeps Telegram.frame (esp3Row p) := by
    unfold esp3Row
    refine Keeps.cond (fun _ => p = ptypeErp2) (hradio .erp2 erp2Decode_keeps) ?_
    refine Keeps.cond (fun _ => p = ptypeErp1) (hradio .erp1 erp1Decode_keeps) ?_
    exact Keeps.write (fun s => otherFields s.fields) fun _ => rfl
  refine (Keeps.write (fun s => hdrFields s.cfg s.fields) fun _ => rfl).andThen ?_
  refine (Keeps.write (fun s => crc8hFields s.cfg s.fields) fun s => ?_).andThen ?_
  · exact (apply_ite Telegram.frame _ _ _).trans (ite_self _)
  refine (Keeps.param (fun s => s.fields.ptype) hrow).andThen ?_
  refine Keeps.andThen ?_ (Keeps.write (fun s => crc8dFields s.cfg s.fields) fun s => ?_)
  · exact Keeps.cond (fun s => s.fields.olen ≠ 0) (Keeps.write (fun s => optFields s.cfg s.fields) fun _ => rfl)
      (Keeps.write (fun s => { s.fields with opt := ⟨6 + s.fields.dlen.toNat, 0⟩, dbm := none }) fun _ => rfl)
  · exact (apply_ite Telegram.frame _ _ _).trans (ite_self _)

/-- `ESP3.DECODE` is its first steps and then `ESP3.MERGE`. -/
theorem execEsp3Decode_eq (s : State) : execEsp3Decode s = andThen (decodeSteps s) execEsp3Merge := by
  simp only [execEsp3Decode, decodeSteps, andThen_assoc]

/-- A well-formed frame's length in terms of its header registers. -/
theorem frameOk_length (cfg : Config) (frame : Bytes) (h : frameOk cfg frame = true) :
    7 ≤ frame.length ∧ bfU16 cfg.lenOrder frame 1 < 65536 ∧
      frame.length = 6 + bfU16 cfg.lenOrder frame 1 + (byteAt frame 3).toNat + 1 := by
  simp only [frameOk, Bool.and_eq_true, decide_eq_true_eq] at h
  refine ⟨h.1.1, ?_, h.2⟩
  unfold bfU16
  cases cfg.lenOrder <;> simp only <;> have := (byteAt frame 1).isLt <;> have := (byteAt frame 2).isLt <;> omega

/-- `ESP3.DECODE` completes: new field registers with the frame in them, the ids asked for, the two events. -/
theorem execEsp3Decode_runs (s : State) :
    ∃ f q, execEsp3Decode s = .next { localNext f q s with telOut := s.telOut ++ eventsOf f } ∧ f.frame = s.fields.frame := by
  obtain ⟨f, q, hd⟩ := decodeSteps_local.runs s
  refine ⟨{ f with crc := crcAll f }, q, ?_, decodeSteps_keeps s _ hd⟩
  rw [execEsp3Decode_eq, hd, andThen_next]
  rfl

/-- The record does not depend on anything but the parameters, the registry and the frame: a decode with blank registers gives the record
of `decodeFrame`. -/
theorem execEsp3Decode_eq_decodeFrame (s : State) (frame : Bytes) (hs : s.fields = { blankTelegram with frame := frame })
    (h : frameOk s.cfg frame = true) :
    ∃ r q, decodeFrame s.cfg s.reg frame = some r ∧ r.frame = frame ∧
      execEsp3Decode s = .next { localNext r q s with telOut := s.telOut ++ eventsOf r } := by
  obtain ⟨f, q, hl⟩ := decodeSteps_local s
  have hd := hl s (.refl s)
  have hview : SameView s { State.reset with cfg := s.cfg, reg := s.reg, fields := { blankTelegram with frame := frame } } :=
    ⟨rfl, rfl, hs.symm⟩
  refine ⟨{ f with crc := crcAll f }, q, ?_, (decodeSteps_keeps s _ hd).trans (congrArg Telegram.frame hs), ?_⟩
  · unfold decodeFrame
    rw [if_pos h, execEsp3Decode_eq, hl _ hview, andThen_next]
    rfl
  · rw [execEsp3Decode_eq, hd, andThen_next]
    rfl

/-- `DecodeFrame` gives a record exactly for a frame that meets the precondition of R160. -/
theorem decodeFrame_isSome (cfg : Config) (reg : List RegDevice) (frame : Bytes) :
    (decodeFrame cfg reg frame).isSome = frameOk cfg frame := by
  cases h : frameOk cfg frame with
  | false => unfold decodeFrame; rw [h]; rfl
  | true =>
    obtain ⟨r, q, hr, _⟩ := execEsp3Decode_eq_decodeFrame
      { State.reset with cfg := cfg, reg := reg, fields := { blankTelegram with frame := frame } } frame rfl h
    rw [show decodeFrame cfg reg frame = some r from hr]
    rfl

end Sys2Proof.Machine
end

