-- ==== Sys2Proof/Laws/Mem.lean ====
section
/-! SUPPORT. What each operation over the frame space and over the registry does, said once: what a read gives after a write, and that the
canonical forms are kept. -/

namespace Sys2Proof.Machine

/-- A read after a write: the byte written at its offset, what was there before at every other. -/
theorem memRead_memWrite (m : Mem) (a : Nat) (b : Byte) (x : Nat) :
    memRead (memWrite m a b) x = if x = a then some b else memRead m x := by
  induction m with
  | nil => rcases eq_or_ne x a with rfl | h <;> simp [memWrite, memRead, *, Ne.symm]
  | cons c m ih =>
    simp only [memWrite]
    split
    · rcases eq_or_ne x a with rfl | h
      · simp [memRead]
      · simp [memRead, h, h.symm]
    · split
      · rename_i heq
        rcases eq_or_ne x a with rfl | h
        · simp [memRead]
        · simp [memRead, h, h.symm, ← heq]
      · rename_i hne
        rcases eq_or_ne x a with rfl | h
        · simp [memRead, ih, Ne.symm hne]
        · simp [memRead, ih, h]

/-- A strictly rising list of offsets: every later offset is greater than the first. -/
theorem memWf_cons (c : Host.Cell) (m : Mem) :
    Mem.wf (c :: m) = true ↔ (∀ d ∈ m, c.1 < d.1) ∧ Mem.wf m = true := by
  induction m generalizing c with
  | nil => simp [Mem.wf]
  | cons d m ih =>
    simp only [Mem.wf, Bool.and_eq_true, decide_eq_true_eq, List.mem_cons, forall_eq_or_imp]
    constructor
    · rintro ⟨h, hw⟩
      exact ⟨⟨h, fun e he => lt_trans h ((ih d).1 hw |>.1 e he)⟩, hw⟩
    · rintro ⟨⟨h, -⟩, hw⟩
      exact ⟨h, hw⟩

/-- The offsets after a write are the offset written and offsets from before. -/
theorem mem_memWrite (m : Mem) (a : Nat) (b : Byte) (d : Host.Cell) (h : d ∈ memWrite m a b) :
    d = (a, b) ∨ d ∈ m := by
  induction m with
  | nil => simpa [memWrite] using h
  | cons c m ih =>
    simp only [memWrite] at h
    split at h
    · simp only [List.mem_cons] at h ⊢; tauto
    · split at h
      · simp only [List.mem_cons] at h ⊢; tauto
      · simp only [List.mem_cons] at h ⊢
        rcases h with h | h
        · tauto
        · rcases ih h with h | h <;> tauto

/-- A write keeps the canonical form. -/
theorem memWrite_wf (m : Mem) (a : Nat) (b : Byte) (h : Mem.wf m = true) : Mem.wf (memWrite m a b) = true := by
  induction m with
  | nil => rfl
  | cons c m ih =>
    have hc := (memWf_cons c m).1 h
    simp only [memWrite]
    split
    · rename_i hlt
      refine (memWf_cons _ _).2 ⟨?_, h⟩
      intro d hd
      rcases List.mem_cons.1 hd with rfl | hd
      · exact hlt
      · exact lt_trans hlt (hc.1 d hd)
    · split
      · rename_i heq
        exact (memWf_cons _ _).2 ⟨fun d hd => by simpa [heq] using hc.1 d hd, hc.2⟩
      · refine (memWf_cons _ _).2 ⟨?_, ih hc.2⟩
        intro d hd
        rcases mem_memWrite m a b d hd with rfl | hd
        · show c.1 < a
          omega
        · exact hc.1 d hd

/-- A read after the append of a chunk: the chunk's byte at an offset it covers below the capacity, what was there before elsewhere. -/
theorem memRead_memWriteBytes (cap : Nat) (m : Mem) (a : Nat) (bs : Bytes) (x : Nat) :
    memRead (memWriteBytes cap m a bs) x =
      if a ≤ x ∧ x < a + bs.length ∧ x < cap then bs[x - a]? else memRead m x := by
  induction bs generalizing m a with
  | nil =>
    simp only [memWriteBytes, List.length_nil, Nat.add_zero]
    rw [if_neg (by omega)]
  | cons b bs ih =>
    simp only [memWriteBytes, ih, List.length_cons]
    by_cases hx : x = a
    · subst hx
      rw [if_neg (by omega)]
      by_cases hc : x < cap
      · simp [hc, memRead_memWrite]
      · simp [hc]
    · have hm : memRead (if a < cap then memWrite m a b else m) x = memRead m x := by
        split
        · rw [memRead_memWrite, if_neg hx]
        · rfl
      rw [hm]
      by_cases hr : a + 1 ≤ x ∧ x < a + 1 + bs.length ∧ x < cap
      · rw [if_pos hr, if_pos (by omega)]
        obtain ⟨k, rfl⟩ : ∃ k, x = a + 1 + k := ⟨x - (a + 1), by omega⟩
        have h1 : a + 1 + k - (a + 1) = k := by omega
        have h2 : a + 1 + k - a = k + 1 := by omega
        simp [h1, h2]
      · rw [if_neg hr, if_neg (by omega)]

/-- The append of a chunk keeps the canonical form. -/
theorem memWriteBytes_wf (cap : Nat) (m : Mem) (a : Nat) (bs : Bytes) (h : Mem.wf m = true) :
    Mem.wf (memWriteBytes cap m a bs) = true := by
  induction bs generalizing m a with
  | nil => exact h
  | cons b bs ih =>
    simp only [memWriteBytes]
    apply ih
    split
    · exact memWrite_wf m a b h
    · exact h

/-- A read of `n` bytes succeeds exactly with the bytes that the single reads give. -/
theorem memReadBytes_eq_some (m : Mem) (a n : Nat) (bs : Bytes) :
    memReadBytes m a n = some bs ↔ bs.length = n ∧ ∀ k, k < n → memRead m (a + k) = bs[k]? := by
  induction n generalizing a bs with
  | zero =>
    simp only [memReadBytes, Option.some.injEq]
    constructor
    · rintro rfl; simp
    · rintro ⟨h, -⟩; exact (List.length_eq_zero_iff.1 h).symm
  | succ n ih =>
    simp only [memReadBytes]
    constructor
    · intro h
      split at h
      · rename_i b cs hb hcs
        cases h
        obtain ⟨hl, hk⟩ := (ih (a + 1) cs).1 hcs
        refine ⟨by simp [hl], fun k hk' => ?_⟩
        cases k with
        | zero => simpa using hb
        | succ k =>
          have := hk k (by omega)
          simpa [Nat.add_comm, Nat.add_left_comm, Nat.add_assoc] using this
      · cases h
    · rintro ⟨hl, hk⟩
      cases bs with
      | nil => simp at hl
      | cons b cs =>
        have h0 := hk 0 (by omega)
        have hcs : memReadBytes m (a + 1) n = some cs := by
          refine (ih (a + 1) cs).2 ⟨by simpa using hl, fun k hk' => ?_⟩
          have := hk (k + 1) (by omega)
          simpa [Nat.add_comm, Nat.add_left_comm, Nat.add_assoc] using this
        simp only [Nat.add_zero, List.getElem?_cons_zero] at h0
        simp [h0, hcs]

/-- Where every offset of a range holds a byte, the range can be read. -/
theorem memReadBytes_of_isSome (m : Mem) (a n : Nat) (h : ∀ k, k < n → (memRead m (a + k)).isSome = true) :
    ∃ bs, memReadBytes m a n = some bs := by
  induction n generalizing a with
  | zero => exact ⟨[], rfl⟩
  | succ n ih =>
    obtain ⟨bs, hbs⟩ := ih (a + 1) fun k hk => by
      have := h (k + 1) (by omega)
      rwa [show a + (k + 1) = a + 1 + k by omega] at this
    obtain ⟨b, hb⟩ := Option.isSome_iff_exists.1 (h 0 (by omega))
    exact ⟨b :: bs, by simp only [Nat.add_zero] at hb; simp [memReadBytes, hb, hbs]⟩

/-- Two frame spaces that agree on a range give the same bytes of it. -/
theorem memReadBytes_congr (m m' : Mem) (a n : Nat) (h : ∀ k, k < n → memRead m' (a + k) = memRead m (a + k)) :
    memReadBytes m' a n = memReadBytes m a n := by
  induction n generalizing a with
  | zero => rfl
  | succ n ih =>
    have h0 := h 0 (by omega)
    simp only [Nat.add_zero] at h0
    simp only [memReadBytes, h0]
    rw [ih (a + 1) fun k hk => by
      have := h (k + 1) (by omega)
      rwa [show a + (k + 1) = a + 1 + k by omega] at this]

/-- A lookup after a registry write: the record written at its id, what was there before at every other. -/
theorem regLookup_regInsert (d : RegDevice) (ds : List RegDevice) (i : Id48) :
    regLookup (regInsert d ds) i = if i = d.id then some d else regLookup ds i := by
  induction ds with
  | nil => rcases eq_or_ne i d.id with rfl | h <;> simp [regInsert, regLookup, *, Ne.symm]
  | cons e ds ih =>
    simp only [regInsert]
    split
    · rcases eq_or_ne i d.id with rfl | h
      · simp [regLookup]
      · simp [regLookup, h, h.symm]
    · split
      · rename_i heq
        rcases eq_or_ne i d.id with rfl | h
        · simp [regLookup]
        · simp [regLookup, h, h.symm, ← heq]
      · rename_i hne
        rcases eq_or_ne i d.id with rfl | h
        · simp [regLookup, ih, Ne.symm hne]
        · simp [regLookup, ih, h]

/-- A rising registry: every later id is greater than the first. -/
theorem regWf_cons (d : RegDevice) (ds : List RegDevice) :
    regWf (d :: ds) = true ↔ (∀ e ∈ ds, d.id < e.id) ∧ regWf ds = true := by
  induction ds generalizing d with
  | nil => simp [regWf]
  | cons e ds ih =>
    simp only [regWf, Bool.and_eq_true, decide_eq_true_eq, List.mem_cons, forall_eq_or_imp]
    constructor
    · rintro ⟨h, hw⟩
      exact ⟨⟨h, fun x hx => BitVec.lt_trans h ((ih e).1 hw |>.1 x hx)⟩, hw⟩
    · rintro ⟨⟨h, -⟩, hw⟩
      exact ⟨h, hw⟩

/-- The records after a registry write are the record written and records from before. -/
theorem mem_regInsert (d : RegDevice) (ds : List RegDevice) (x : RegDevice) (h : x ∈ regInsert d ds) : x = d ∨ x ∈ ds := by
  induction ds with
  | nil => simpa [regInsert] using h
  | cons e ds ih =>
    simp only [regInsert] at h
    split at h
    · simp only [List.mem_cons] at h ⊢; tauto
    · split at h
      · simp only [List.mem_cons] at h ⊢; tauto
      · simp only [List.mem_cons] at h ⊢
        rcases h with h | h
        · tauto
        · rcases ih h with h | h <;> tauto

/-- A registry write keeps the canonical form. -/
theorem regInsert_wf (d : RegDevice) (ds : List RegDevice) (h : regWf ds = true) : regWf (regInsert d ds) = true := by
  induction ds with
  | nil => rfl
  | cons e ds ih =>
    have he := (regWf_cons e ds).1 h
    simp only [regInsert]
    split
    · rename_i hlt
      refine (regWf_cons _ _).2 ⟨?_, h⟩
      intro x hx
      rcases List.mem_cons.1 hx with rfl | hx
      · exact hlt
      · exact BitVec.lt_trans hlt (he.1 x hx)
    · split
      · rename_i heq
        exact (regWf_cons _ _).2 ⟨fun x hx => by simpa [heq] using he.1 x hx, he.2⟩
      · rename_i hlt hne
        refine (regWf_cons _ _).2 ⟨?_, ih he.2⟩
        intro x hx
        rcases mem_regInsert d ds x hx with rfl | hx
        · have h1 : e.id.toNat ≠ x.id.toNat := fun hh => hne (BitVec.eq_of_toNat_eq hh.symm)
          simp only [BitVec.lt_def] at hlt ⊢
          omega
        · exact he.1 x hx

end Sys2Proof.Machine
end

