-- ==== Sys2Proof/Laws/PerInstr.lean ====
section
/-! SUPPORT. A statement about every operation as syntax, one lemma for each constructor: the encoder writes a key of the format of the
operation's own row (spec/opcode_table.json). -/

/-- The bytes that the encoder gives an operation are a key of the format of its row. -/
def Sys2Proof.Laws.EncodeKey.Statement (i : Sys2Proof.Instr) : Prop :=
  ∀ bytes, Sys2Proof.encode i = some bytes → ∃ k, Sys2Proof.wireKey i.format bytes = .ok k

theorem Sys2Proof.Laws.EncodeKey.crc8Compute (bytes : Sys2Proof.Bytes) : Sys2Proof.Laws.EncodeKey.Statement (.crc8Compute bytes) := by
  rintro _ ⟨⟩

theorem Sys2Proof.Laws.EncodeKey.crc8Verify (candidate : Sys2Proof.Byte) (bytes : Sys2Proof.Bytes) : Sys2Proof.Laws.EncodeKey.Statement (.crc8Verify candidate bytes) := by
  rintro _ ⟨⟩

theorem Sys2Proof.Laws.EncodeKey.bfBit (b : Sys2Proof.Byte) (idx : Fin 8) : Sys2Proof.Laws.EncodeKey.Statement (.bfBit b idx) := by
  rintro _ ⟨⟩

theorem Sys2Proof.Laws.EncodeKey.bfField (b : Sys2Proof.Byte) (hi lo : Fin 8) : Sys2Proof.Laws.EncodeKey.Statement (.bfField b hi lo) := by
  rintro _ ⟨⟩

theorem Sys2Proof.Laws.EncodeKey.bfCat (a wa b wb : Nat) : Sys2Proof.Laws.EncodeKey.Statement (.bfCat a wa b wb) := by
  rintro _ ⟨⟩

theorem Sys2Proof.Laws.EncodeKey.bfU16 (bytes : Sys2Proof.Bytes) (offset : Nat) : Sys2Proof.Laws.EncodeKey.Statement (.bfU16 bytes offset) := by
  rintro _ ⟨⟩

theorem Sys2Proof.Laws.EncodeKey.bfSlice (bytes : Sys2Proof.Bytes) (start stop : Nat) : Sys2Proof.Laws.EncodeKey.Statement (.bfSlice bytes start stop) := by
  rintro _ ⟨⟩

theorem Sys2Proof.Laws.EncodeKey.bfIdnorm (id : Sys2Proof.Bytes) : Sys2Proof.Laws.EncodeKey.Statement (.bfIdnorm id) := by
  rintro _ ⟨⟩

theorem Sys2Proof.Laws.EncodeKey.rsmStep : Sys2Proof.Laws.EncodeKey.Statement .rsmStep := by
  rintro _ ⟨⟩

theorem Sys2Proof.Laws.EncodeKey.rsmNop : Sys2Proof.Laws.EncodeKey.Statement .rsmNop := by
  rintro _ ⟨⟩; exact ⟨_, rfl⟩

theorem Sys2Proof.Laws.EncodeKey.rsmStart : Sys2Proof.Laws.EncodeKey.Statement .rsmStart := by
  rintro _ ⟨⟩; exact ⟨_, rfl⟩

theorem Sys2Proof.Laws.EncodeKey.rsmDrop (first : Sys2Proof.Byte) : Sys2Proof.Laws.EncodeKey.Statement (.rsmDrop first) := by
  rintro _ ⟨⟩; exact ⟨_, rfl⟩

theorem Sys2Proof.Laws.EncodeKey.rsmAppend : Sys2Proof.Laws.EncodeKey.Statement .rsmAppend := by
  rintro _ ⟨⟩

theorem Sys2Proof.Laws.EncodeKey.rsmWait : Sys2Proof.Laws.EncodeKey.Statement .rsmWait := by
  rintro _ ⟨⟩

theorem Sys2Proof.Laws.EncodeKey.rsmEmit : Sys2Proof.Laws.EncodeKey.Statement .rsmEmit := by
  rintro _ ⟨⟩

theorem Sys2Proof.Laws.EncodeKey.rsmOverrun : Sys2Proof.Laws.EncodeKey.Statement .rsmOverrun := by
  rintro _ ⟨⟩

theorem Sys2Proof.Laws.EncodeKey.esp3Decode : Sys2Proof.Laws.EncodeKey.Statement .esp3Decode := by
  rintro _ ⟨⟩

theorem Sys2Proof.Laws.EncodeKey.esp3Hdr : Sys2Proof.Laws.EncodeKey.Statement .esp3Hdr := by
  rintro _ ⟨⟩

theorem Sys2Proof.Laws.EncodeKey.esp3Crc8h : Sys2Proof.Laws.EncodeKey.Statement .esp3Crc8h := by
  rintro _ ⟨⟩

theorem Sys2Proof.Laws.EncodeKey.esp3Erp1 : Sys2Proof.Laws.EncodeKey.Statement .esp3Erp1 := by
  rintro _ ⟨⟩; exact ⟨_, rfl⟩

theorem Sys2Proof.Laws.EncodeKey.esp3Erp2 : Sys2Proof.Laws.EncodeKey.Statement .esp3Erp2 := by
  rintro _ ⟨⟩; exact ⟨_, rfl⟩

theorem Sys2Proof.Laws.EncodeKey.esp3Other (ptype : Sys2Proof.Byte) : Sys2Proof.Laws.EncodeKey.Statement (.esp3Other ptype) := by
  rintro _ ⟨⟩; exact ⟨_, rfl⟩

theorem Sys2Proof.Laws.EncodeKey.esp3Opt : Sys2Proof.Laws.EncodeKey.Statement .esp3Opt := by
  rintro _ ⟨⟩

theorem Sys2Proof.Laws.EncodeKey.esp3Crc8d : Sys2Proof.Laws.EncodeKey.Statement .esp3Crc8d := by
  rintro _ ⟨⟩

theorem Sys2Proof.Laws.EncodeKey.esp3Merge : Sys2Proof.Laws.EncodeKey.Statement .esp3Merge := by
  rintro _ ⟨⟩

theorem Sys2Proof.Laws.EncodeKey.erp2Decode : Sys2Proof.Laws.EncodeKey.Statement .erp2Decode := by
  rintro _ ⟨⟩

theorem Sys2Proof.Laws.EncodeKey.erp2Subcrc : Sys2Proof.Laws.EncodeKey.Statement .erp2Subcrc := by
  rintro _ ⟨⟩

theorem Sys2Proof.Laws.EncodeKey.erp2Hdrbyte : Sys2Proof.Laws.EncodeKey.Statement .erp2Hdrbyte := by
  rintro _ ⟨⟩

theorem Sys2Proof.Laws.EncodeKey.erp2Ac0 (eha : BitVec 1) (tt : BitVec 4) : Sys2Proof.Laws.EncodeKey.Statement (.erp2Ac0 eha tt) := by
  rintro _ ⟨⟩; exact ⟨_, rfl⟩

theorem Sys2Proof.Laws.EncodeKey.erp2Ac1 (eha : BitVec 1) (tt : BitVec 4) : Sys2Proof.Laws.EncodeKey.Statement (.erp2Ac1 eha tt) := by
  rintro _ ⟨⟩; exact ⟨_, rfl⟩

theorem Sys2Proof.Laws.EncodeKey.erp2Ac2 (eha : BitVec 1) (tt : BitVec 4) : Sys2Proof.Laws.EncodeKey.Statement (.erp2Ac2 eha tt) := by
  rintro _ ⟨⟩; exact ⟨_, rfl⟩

theorem Sys2Proof.Laws.EncodeKey.erp2Ac3 (eha : BitVec 1) (tt : BitVec 4) : Sys2Proof.Laws.EncodeKey.Statement (.erp2Ac3 eha tt) := by
  rintro _ ⟨⟩; exact ⟨_, rfl⟩

theorem Sys2Proof.Laws.EncodeKey.erp2Acrsv (ac : BitVec 2) (eha : BitVec 1) (tt : BitVec 4) : Sys2Proof.Laws.EncodeKey.Statement (.erp2Acrsv ac eha tt) := by
  rintro _ ⟨⟩; exact ⟨_, rfl⟩

theorem Sys2Proof.Laws.EncodeKey.erp2Eha (ac : BitVec 3) (tt : BitVec 4) : Sys2Proof.Laws.EncodeKey.Statement (.erp2Eha ac tt) := by
  rintro _ ⟨⟩; exact ⟨_, rfl⟩

theorem Sys2Proof.Laws.EncodeKey.erp2Tt0 (ac : BitVec 3) (eha : BitVec 1) : Sys2Proof.Laws.EncodeKey.Statement (.erp2Tt0 ac eha) := by
  rintro _ ⟨⟩; exact ⟨_, rfl⟩

theorem Sys2Proof.Laws.EncodeKey.erp2Tt1 (ac : BitVec 3) (eha : BitVec 1) : Sys2Proof.Laws.EncodeKey.Statement (.erp2Tt1 ac eha) := by
  rintro _ ⟨⟩; exact ⟨_, rfl⟩

theorem Sys2Proof.Laws.EncodeKey.erp2Tt2 (ac : BitVec 3) (eha : BitVec 1) : Sys2Proof.Laws.EncodeKey.Statement (.erp2Tt2 ac eha) := by
  rintro _ ⟨⟩; exact ⟨_, rfl⟩

theorem Sys2Proof.Laws.EncodeKey.erp2Tt3 (ac : BitVec 3) (eha : BitVec 1) : Sys2Proof.Laws.EncodeKey.Statement (.erp2Tt3 ac eha) := by
  rintro _ ⟨⟩; exact ⟨_, rfl⟩

theorem Sys2Proof.Laws.EncodeKey.erp2Tt4 (ac : BitVec 3) (eha : BitVec 1) : Sys2Proof.Laws.EncodeKey.Statement (.erp2Tt4 ac eha) := by
  rintro _ ⟨⟩; exact ⟨_, rfl⟩

theorem Sys2Proof.Laws.EncodeKey.erp2Tt5 (ac : BitVec 3) (eha : BitVec 1) : Sys2Proof.Laws.EncodeKey.Statement (.erp2Tt5 ac eha) := by
  rintro _ ⟨⟩; exact ⟨_, rfl⟩

theorem Sys2Proof.Laws.EncodeKey.erp2Tt6 (ac : BitVec 3) (eha : BitVec 1) : Sys2Proof.Laws.EncodeKey.Statement (.erp2Tt6 ac eha) := by
  rintro _ ⟨⟩; exact ⟨_, rfl⟩

theorem Sys2Proof.Laws.EncodeKey.erp2Tt7 (ac : BitVec 3) (eha : BitVec 1) : Sys2Proof.Laws.EncodeKey.Statement (.erp2Tt7 ac eha) := by
  rintro _ ⟨⟩; exact ⟨_, rfl⟩

theorem Sys2Proof.Laws.EncodeKey.erp2Tt8 (ac : BitVec 3) (eha : BitVec 1) : Sys2Proof.Laws.EncodeKey.Statement (.erp2Tt8 ac eha) := by
  rintro _ ⟨⟩; exact ⟨_, rfl⟩

theorem Sys2Proof.Laws.EncodeKey.erp2Tt9 (ac : BitVec 3) (eha : BitVec 1) : Sys2Proof.Laws.EncodeKey.Statement (.erp2Tt9 ac eha) := by
  rintro _ ⟨⟩; exact ⟨_, rfl⟩

theorem Sys2Proof.Laws.EncodeKey.erp2Tt10 (ac : BitVec 3) (eha : BitVec 1) : Sys2Proof.Laws.EncodeKey.Statement (.erp2Tt10 ac eha) := by
  rintro _ ⟨⟩; exact ⟨_, rfl⟩

theorem Sys2Proof.Laws.EncodeKey.erp2Ttrsv11 (ac : BitVec 3) (eha : BitVec 1) : Sys2Proof.Laws.EncodeKey.Statement (.erp2Ttrsv11 ac eha) := by
  rintro _ ⟨⟩; exact ⟨_, rfl⟩

theorem Sys2Proof.Laws.EncodeKey.erp2Ttrsv12 (ac : BitVec 3) (eha : BitVec 1) : Sys2Proof.Laws.EncodeKey.Statement (.erp2Ttrsv12 ac eha) := by
  rintro _ ⟨⟩; exact ⟨_, rfl⟩

theorem Sys2Proof.Laws.EncodeKey.erp2Ttrsv13 (ac : BitVec 3) (eha : BitVec 1) : Sys2Proof.Laws.EncodeKey.Statement (.erp2Ttrsv13 ac eha) := by
  rintro _ ⟨⟩; exact ⟨_, rfl⟩

theorem Sys2Proof.Laws.EncodeKey.erp2Ttrsv14 (ac : BitVec 3) (eha : BitVec 1) : Sys2Proof.Laws.EncodeKey.Statement (.erp2Ttrsv14 ac eha) := by
  rintro _ ⟨⟩; exact ⟨_, rfl⟩

theorem Sys2Proof.Laws.EncodeKey.erp2Ttext (ac : BitVec 3) (eha : BitVec 1) : Sys2Proof.Laws.EncodeKey.Statement (.erp2Ttext ac eha) := by
  rintro _ ⟨⟩; exact ⟨_, rfl⟩

theorem Sys2Proof.Laws.EncodeKey.erp2Short : Sys2Proof.Laws.EncodeKey.Statement .erp2Short := by
  rintro _ ⟨⟩

theorem Sys2Proof.Laws.EncodeKey.erp1Decode : Sys2Proof.Laws.EncodeKey.Statement .erp1Decode := by
  rintro _ ⟨⟩

theorem Sys2Proof.Laws.EncodeKey.erp1Short : Sys2Proof.Laws.EncodeKey.Statement .erp1Short := by
  rintro _ ⟨⟩

theorem Sys2Proof.Laws.EncodeKey.erp1Fields : Sys2Proof.Laws.EncodeKey.Statement .erp1Fields := by
  rintro _ ⟨⟩

theorem Sys2Proof.Laws.EncodeKey.erp1Ti4bs : Sys2Proof.Laws.EncodeKey.Statement .erp1Ti4bs := by
  rintro _ ⟨⟩; exact ⟨_, rfl⟩

theorem Sys2Proof.Laws.EncodeKey.erp1Tiute : Sys2Proof.Laws.EncodeKey.Statement .erp1Tiute := by
  rintro _ ⟨⟩; exact ⟨_, rfl⟩

theorem Sys2Proof.Laws.EncodeKey.erp1Ti1bs : Sys2Proof.Laws.EncodeKey.Statement .erp1Ti1bs := by
  rintro _ ⟨⟩; exact ⟨_, rfl⟩

theorem Sys2Proof.Laws.EncodeKey.erp1Tinone (rorg : Sys2Proof.Byte) : Sys2Proof.Laws.EncodeKey.Statement (.erp1Tinone rorg) := by
  rintro _ ⟨⟩; exact ⟨_, rfl⟩

theorem Sys2Proof.Laws.EncodeKey.eepDecode (e : Sys2Proof.EepArg) (payload : Sys2Proof.Bytes) : Sys2Proof.Laws.EncodeKey.Statement (.eepDecode e payload) := by
  rintro _ ⟨⟩

theorem Sys2Proof.Laws.EncodeKey.eepIsknown (e : Sys2Proof.EepArg) : Sys2Proof.Laws.EncodeKey.Statement (.eepIsknown e) := by
  rintro _ ⟨⟩

theorem Sys2Proof.Laws.EncodeKey.eepD50001 : Sys2Proof.Laws.EncodeKey.Statement .eepD50001 := by
  rintro _ ⟨⟩; exact ⟨_, rfl⟩

theorem Sys2Proof.Laws.EncodeKey.eepA50205 : Sys2Proof.Laws.EncodeKey.Statement .eepA50205 := by
  rintro _ ⟨⟩; exact ⟨_, rfl⟩

theorem Sys2Proof.Laws.EncodeKey.eepUnknown (code : Option Sys2Proof.Eep) : Sys2Proof.Laws.EncodeKey.Statement (.eepUnknown code) := by
  cases code <;> (rintro _ ⟨⟩; exact ⟨_, rfl⟩)
end

