-- ==== Sys2Proof/Tests/Slice0.lean ====
section
/-! SUPPORT. Tests: ill-formed operations that WellFormed refuses, words of the encoding tables, the worked examples of the spec one step
each, and for every statement with hypotheses a concrete state that meets them. -/

namespace Sys2Proof.Tests

-- One theorem at a time: each waiting kernel evaluation would otherwise hold a thread and its stack.
set_option Elab.async false

open Sys2Proof Sys2Proof.Machine

/-! States to test on. -/

/-- After reset, with these chunks to come. -/
def idleWith (chunks : List Bytes) : State := { State.reset with input := chunks.map .chunk }

/-- In `Accumulating` with a partial frame, and a chunk to come. -/
def accWith (buffer c : Bytes) : State :=
  { State.reset with
    rsm := .accumulating, mem := memWriteBytes 65797 [] 0 buffer, flen := buffer.length, input := [.chunk c] }

/-- With this `FRAME`. -/
def frameState (frame : Bytes) : State := { State.reset with fields := { blankTelegram with frame := frame } }

/-- With this data region. -/
def dataState (d : Bytes) : State :=
  { State.reset with fields := { blankTelegram with frame := d, data := ⟨0, d.length⟩, dlen := BitVec.ofNat 16 d.length } }

/-- With this Data_DL. -/
def dlState (p : Bytes) : State := { State.reset with fields := { blankTelegram with frame := p, dl := some ⟨0, p.length⟩ } }

/-- With these registers read and these regions in `FRAME`. -/
def regionState (frame : Bytes) (dlen : BitVec 16) (olen ptype : Byte) : State :=
  { State.reset with fields := { blankTelegram with frame := frame, dlen := dlen, olen := olen, ptype := ptype } }

/-- The default parameters with one more profile, an Address Control table with every other value reserved, and teach-ins written
out. -/
def largerConfig : Config :=
  { configDefault with
    acTable := [none, some ⟨.w4, false⟩, none, some ⟨.w6, false⟩, some ⟨.w3, false⟩, none, none, none]
    profileTable := profileTableDefault ++ [⟨0xD50002, 1, .contactSwitch⟩, ⟨0xF60204, 1, .other 0⟩]
    teachin4bs := .table [] ⟨none, none⟩
    teachinUte := .table [] ⟨0, 0, ⟨0, 0, 0, 0, 0⟩⟩ }

/-- A property of the next state that an operation answers. -/
def nextIs (o : Answer) (p : State → Bool) : Bool :=
  match o with
  | .next t => p t
  | _ => false

/-- A property of the record of a frame. -/
def recordIs (reg : List RegDevice) (frame : Bytes) (p : Telegram → Bool) : Bool :=
  match decodeFrame configDefault reg frame with
  | some r => p r
  | none => false

theorem recordIs_witness (reg : List RegDevice) (frame : Bytes) (p : Telegram → Bool) (h : recordIs reg frame p = true) :
    ∃ r, decodeFrame configDefault reg frame = some r ∧ p r = true := by
  unfold recordIs at h
  split at h
  · exact ⟨_, by assumption, h⟩
  · cases h

theorem memBelow_of_list (cap : Nat) (m : Mem) (h : ∀ c ∈ m, c.1 < cap) : memBelow cap m := by
  intro a b
  induction m with
  | nil => intro hr; cases hr
  | cons c m ih =>
    simp only [memRead]
    split
    · rename_i hc
      intro _
      exact hc ▸ h c (List.mem_cons_self ..)
    · exact ih fun d hd => h d (List.mem_cons_of_mem _ hd)

/-- The smallest frame (42_reassembler.md R145). -/
def frameMin : Bytes := [0x55, 0x00, 0x00, 0x00, 0x05, 0x1B, 0x00]

/-- The whole-frame example of 43_esp3_frame.md R172. -/
def frameErp1 : Bytes :=
  [0x55, 0x00, 0x07, 0x07, 0x01, 0x7A, 0xD5, 0x09, 0x04, 0x00, 0x8F, 0xE0, 0x00, 0x01, 0xFF, 0xFF, 0xFF, 0xFF, 0x2D, 0x00, 0x62]

/-- The whole-frame example of 44_erp2.md R196. -/
def frameErp2 : Bytes :=
  [0x55, 0x00, 0x09, 0x00, 0x0A, 0x0C, 0x02, 0x8F, 0xE0, 0x01, 0x00, 0x00, 0x80, 0x08, 0x18, 0x00]

/-- The opaque frame of 43_esp3_frame.md R164. -/
def frameOther : Bytes := [0x55, 0x00, 0x01, 0x00, 0x02, 0x65, 0x00, 0x00]

/-! WellFormed refuses an ill-formed operation for each of its checks. -/

theorem test_wf_bfField : (Instr.bfField 0x00 2 3).wf = false := by decide
theorem test_wf_bfCat_first : (Instr.bfCat 4 2 0 1).wf = false := by decide
theorem test_wf_bfCat_second : (Instr.bfCat 0 2 2 1).wf = false := by decide
theorem test_wf_bfU16 : (Instr.bfU16 [0x55, 0x00] 1).wf = false := by decide
theorem test_wf_bfSlice_order : (Instr.bfSlice [0x01, 0x02] 2 1).wf = false := by decide
theorem test_wf_bfSlice_end : (Instr.bfSlice [0x01, 0x02] 1 3).wf = false := by decide
theorem test_wf_bfIdnorm : (Instr.bfIdnorm [0x01, 0x02, 0x03, 0x04, 0x05]).wf = false := by decide
theorem test_wf_rsmDrop : (Instr.rsmDrop 0x55).wf = false := by decide
theorem test_wf_esp3Other_erp1 : (Instr.esp3Other 0x01).wf = false := by decide
theorem test_wf_esp3Other_erp2 : (Instr.esp3Other 0x0A).wf = false := by decide
theorem test_wf_erp1Tinone_4bs : (Instr.erp1Tinone 0xA5).wf = false := by decide
theorem test_wf_erp1Tinone_ute : (Instr.erp1Tinone 0xD4).wf = false := by decide
theorem test_wf_erp1Tinone_1bs : (Instr.erp1Tinone 0xD5).wf = false := by decide
theorem test_wf_eepUnknown_D50001 : (Instr.eepUnknown (some 0xD50001)).wf = false := by decide
theorem test_wf_eepUnknown_A50205 : (Instr.eepUnknown (some 0xA50205)).wf = false := by decide

/-! Words of the encoding tables (30_encoding.md R83, R84, R87, R89, R92, R93, R95), written out bit by bit. -/

theorem test_decode_rsmNop : decode .chunk [] = .ok .rsmNop := by decide
theorem test_decode_rsmStart : decode .chunk [0b01010101, 0x00] = .ok .rsmStart := by decide
theorem test_decode_rsmDrop : decode .chunk [0b10101010] = .ok (.rsmDrop 0b10101010) := by decide
theorem test_decode_rsmAppend : decodeKey (.chunk .accumulating (some 0x55)) = some .rsmAppend := by decide
theorem test_decode_rsmWait_short : decodeKey (.chunkLen 6 0) = some .rsmWait := by decide
theorem test_decode_rsmWait_more : decodeKey (.chunkLen 7 8) = some .rsmWait := by decide
theorem test_decode_rsmEmit : decodeKey (.chunkLen 7 7) = some .rsmEmit := by decide
theorem test_decode_rsmOverrun : decodeKey (.chunkLen 8 7) = some .rsmOverrun := by decide
theorem test_decode_esp3Erp1 : decode .esp3 [0b00000001] = .ok .esp3Erp1 := by decide
theorem test_decode_esp3Erp2 : decode .esp3 [0b00001010] = .ok .esp3Erp2 := by decide
theorem test_decode_esp3Other : decode .esp3 [0b00000010] = .ok (.esp3Other 0x02) := by decide
theorem test_decode_erp1Ti4bs : decode .erp1 [0b10100101] = .ok .erp1Ti4bs := by decide
theorem test_decode_erp1Tiute : decode .erp1 [0b11010100] = .ok .erp1Tiute := by decide
theorem test_decode_erp1Ti1bs : decode .erp1 [0b11010101] = .ok .erp1Ti1bs := by decide
theorem test_decode_erp1Tinone : decode .erp1 [0b11110110] = .ok (.erp1Tinone 0xF6) := by decide
theorem test_decode_erp1Short : decodeKey (.erp1Len 6) = some .erp1Short ∧ decodeKey (.erp1Len 7) = none := by decide
theorem test_decode_erp2Ac0 : decode .erp2Ac [0b00010010] = .ok (.erp2Ac0 1 2) := by decide
theorem test_decode_erp2Ac1 : decode .erp2Ac [0b00100010] = .ok (.erp2Ac1 0 2) := by decide
theorem test_decode_erp2Ac2 : decode .erp2Ac [0b01000001] = .ok (.erp2Ac2 0 1) := by decide
theorem test_decode_erp2Ac3 : decode .erp2Ac [0b01100010] = .ok (.erp2Ac3 0 2) := by decide
theorem test_decode_erp2Acrsv : decode .erp2Ac [0b11010101] = .ok (.erp2Acrsv 2 1 5) := by decide
theorem test_decode_erp2Eha : decode .erp2Eha [0b10110110] = .ok (.erp2Eha 5 6) := by decide
theorem test_decode_erp2Eha_clear : decode .erp2Eha [0b10100110] = .error (.noRow .erp2Eha) := by decide
theorem test_decode_erp2Tt0 : decode .erp2Tt [0b01110000] = .ok (.erp2Tt0 3 1) := by decide
theorem test_decode_erp2Tt1 : decode .erp2Tt [0b01110001] = .ok (.erp2Tt1 3 1) := by decide
theorem test_decode_erp2Tt2 : decode .erp2Tt [0b01110010] = .ok (.erp2Tt2 3 1) := by decide
theorem test_decode_erp2Tt3 : decode .erp2Tt [0b01110011] = .ok (.erp2Tt3 3 1) := by decide
theorem test_decode_erp2Tt4 : decode .erp2Tt [0b01110100] = .ok (.erp2Tt4 3 1) := by decide
theorem test_decode_erp2Tt5 : decode .erp2Tt [0b01110101] = .ok (.erp2Tt5 3 1) := by decide
theorem test_decode_erp2Tt6 : decode .erp2Tt [0b01110110] = .ok (.erp2Tt6 3 1) := by decide
theorem test_decode_erp2Tt7 : decode .erp2Tt [0b01110111] = .ok (.erp2Tt7 3 1) := by decide
theorem test_decode_erp2Tt8 : decode .erp2Tt [0b01111000] = .ok (.erp2Tt8 3 1) := by decide
theorem test_decode_erp2Tt9 : decode .erp2Tt [0b01111001] = .ok (.erp2Tt9 3 1) := by decide
theorem test_decode_erp2Tt10 : decode .erp2Tt [0b01111010] = .ok (.erp2Tt10 3 1) := by decide
theorem test_decode_erp2Ttrsv11 : decode .erp2Tt [0b01101011] = .ok (.erp2Ttrsv11 3 0) := by decide
theorem test_decode_erp2Ttrsv12 : decode .erp2Tt [0b01101100] = .ok (.erp2Ttrsv12 3 0) := by decide
theorem test_decode_erp2Ttrsv13 : decode .erp2Tt [0b01101101] = .ok (.erp2Ttrsv13 3 0) := by decide
theorem test_decode_erp2Ttrsv14 : decode .erp2Tt [0b01101110] = .ok (.erp2Ttrsv14 3 0) := by decide
theorem test_decode_erp2Ttext : decode .erp2Tt [0b01101111] = .ok (.erp2Ttext 3 0) := by decide
theorem test_decode_erp2Short : decodeKey (.erp2Len 4 5) = some .erp2Short ∧ decodeKey (.erp2Len 5 5) = none := by decide
theorem test_decode_eepD50001 : decode .eep [0b11010101, 0b00000000, 0b00000001] = .ok .eepD50001 := by decide
theorem test_decode_eepA50205 : decode .eep [0b10100101, 0b00000010, 0b00000101] = .ok .eepA50205 := by decide
theorem test_decode_eepUnknown : decode .eep [0b11110110, 0b00000010, 0b00000100] = .ok (.eepUnknown (some 0xF60204)) := by decide
theorem test_decode_eepUnknown_none : decode .eep [] = .ok (.eepUnknown none) := by decide
theorem test_decode_noWireKey : decode .func [0x00] = .error (.noWireKey .func) := by decide
theorem test_decode_keyLength : decode .esp3 [0x01, 0x01] = .error (.keyLength .esp3 2) := by decide

theorem test_tableWord_chunk : decodeTableWord 8 0x55 = some .rsmStart := by decide
theorem test_tableWord_eep : decodeTableWord 24 0xA50205 = some .eepA50205 := by decide

/-! The CRC8 engine and the extractors: worked examples of 40_crc8.md and 41_bitfield.md. -/

/-- The default table is the one of the polynomial 0x07 (40_crc8.md R121). -/
theorem test_crc8_table_polynomial :
    ∀ i : Fin 256, configDefault.crc8Table[i.val]? =
      some ((fun c : Byte => if c.getLsbD 7 then (c <<< 1) ^^^ 0x07 else c <<< 1)^[8] (BitVec.ofNat 8 i.val)) := by decide +kernel

theorem test_crc8Compute : nextIs (exec (.crc8Compute [0x00, 0x07, 0x07, 0x01]) State.reset)
    (fun t => decide (t.fnOut = some (.byte 0x7A))) = true := by decide +kernel
theorem test_crc8Verify : nextIs (exec (.crc8Verify 0x7B [0x00, 0x07, 0x07, 0x01]) State.reset)
    (fun t => decide (t.fnOut = some (.bool false))) = true := by decide +kernel
theorem test_bfBit : nextIs (exec (.bfBit 0x09 3) State.reset) (fun t => decide (t.fnOut = some (.num 1))) = true := by decide
theorem test_bfField : nextIs (exec (.bfField 0x62 7 5) State.reset) (fun t => decide (t.fnOut = some (.num 3))) = true := by decide
theorem test_bfCat : nextIs (exec (.bfCat 2 3 11 8) State.reset) (fun t => decide (t.fnOut = some (.num 523))) = true := by decide
theorem test_bfU16 : nextIs (exec (.bfU16 [0x55, 0x00, 0x0A, 0x07] 1) State.reset)
    (fun t => decide (t.fnOut = some (.num 10))) = true := by decide
theorem test_bfSlice : nextIs (exec (.bfSlice [0xD5, 0x09, 0x04, 0x00, 0x8F, 0xE0, 0x00] 2 6) State.reset)
    (fun t => decide (t.fnOut = some (.bytes [0x04, 0x00, 0x8F, 0xE0]))) = true := by decide
theorem test_bfIdnorm : nextIs (exec (.bfIdnorm [0x8F, 0xE0, 0x01]) State.reset)
    (fun t => decide (t.fnOut = some (.id 0x0000008FE001))) = true := by decide

/-! The Reassembler: worked examples of 42_reassembler.md, one step each. -/

theorem test_rsmStart : nextIs (step (idleWith [[0x55, 0x00, 0x07]]))
    (fun t => decide (t.rsm = .accumulating ∧ t.flen = 3 ∧ memRead t.mem 2 = some 0x07)) = true := by decide +kernel
theorem test_rsmAppend : nextIs (step (accWith [0x55, 0x00, 0x07] [0x07, 0x01, 0x7A, 0xD5]))
    (fun t => decide (t.rsm = .accumulating ∧ t.flen = 7 ∧ vlen t = some 21)) = true := by decide +kernel
theorem test_rsmDrop : nextIs (step (idleWith [[0x00, 0x55, 0x00, 0x07]]))
    (fun t => decide (t.rsm = .idle ∧ t.mem = [] ∧ t.diagOut = [.drop 4])) = true := by decide +kernel
theorem test_rsmEmit : nextIs (step (accWith [0x55, 0x00, 0x00, 0x00, 0x05, 0x1B] [0x00]))
    (fun t => decide (t.rsm = .idle ∧ t.flen = 0 ∧ t.telOut.map TelEvent.tag = [.unknown, .data])) = true := by decide +kernel
theorem test_rsmOverrun : nextIs (step (idleWith [[0x55, 0x00, 0x00, 0x00, 0x05, 0x1B, 0x00, 0x55]]))
    (fun t => decide (t.rsm = .idle ∧ t.telOut = [] ∧ t.diagOut = [.overrun 8 7])) = true := by decide +kernel
theorem test_rsmNop : nextIs (step (accWith [0x55, 0x00, 0x07] []))
    (fun t => decide (t.rsm = .accumulating ∧ t.flen = 3)) = true := by decide +kernel
/-- 70_reset_and_hazards.md R302: the length is believed before it is checked. -/
theorem test_rsmWait_falseSync : nextIs (step (accWith [0x55, 0xFF] [0xFF, 0xFF, 0x00, 0x00, 0x00]))
    (fun t => decide (t.flen = 7 ∧ vlen t = some 65797)) = true := by decide +kernel

/-! Frames: the worked examples of 43_esp3_frame.md R164, R172, 44_erp2.md R194 to R196 and 45_erp1.md R214. -/

theorem test_frame_erp1 : recordIs [⟨0x04008FE0, 0xD50001, none, none, true⟩] frameErp1
    (fun r => decide (r.crc = true ∧ r.dbm = some (-45) ∧ r.oid = some 0x04008FE0 ∧ r.report.desc = some .closed ∧
      category r = .known)) = true := by decide +kernel
theorem test_frame_erp2 : recordIs [⟨0x8FE001, 0xA50205, none, none, true⟩] frameErp2
    (fun r => decide (r.crc = true ∧ r.rorg = some 0xA5 ∧ r.oidw = some .w3 ∧ r.report.desc = some (.temperature 199 1) ∧
      category r = .known)) = true := by decide +kernel
theorem test_frame_erp2_unregistered : recordIs [] frameErp2
    (fun r => decide (r.dev = some ⟨0x8FE001, none, none, none, false⟩ ∧ r.reason = [.eepAbsent] ∧ category r = .unknown)) = true := by
  decide +kernel
theorem test_frame_other : recordIs [] frameOther
    (fun r => decide (r.isOpaque = true ∧ r.reason = [.ptypeUnknown] ∧ category r = .unknown)) = true := by decide +kernel
theorem test_erp1_4bsTeachIn :
    nextIs (exec .erp1Decode (dataState [0xA5, 0x08, 0x28, 0x0B, 0x80, 0x04, 0x00, 0x8F, 0xE0, 0x00]))
    (fun t => decide (t.fields.eep = some 0xA50205 ∧ t.fields.manuf = some 0x00B ∧ t.fields.learn = true ∧
      t.fields.dev = some ⟨0x04008FE0, some 0xA50205, none, some (.id 0x00B), false⟩)) = true := by decide +kernel
theorem test_erp1_uteTeachIn :
    nextIs (exec .erp1Decode
      (dataState [0xD4, 0xA0, 0x01, 0x46, 0x00, 0x12, 0x01, 0xD2, 0x01, 0x9C, 0x2A, 0x5B, 0x00]))
    (fun t => decide (t.fields.ti = some ⟨some 0xD20112, some 0x046, some ⟨1, 0, 2, 0, 1⟩⟩ ∧ t.fields.known = false ∧
      t.fields.learn = true)) = true := by decide +kernel
theorem test_erp1_short : nextIs (exec .erp1Decode (dataState [0xD5, 0x04, 0x00, 0x8F, 0xE0, 0x00]))
    (fun t => decide (t.fields.isOpaque = true ∧ t.fields.reason = [.erp1Short])) = true := by decide +kernel
-- Outside their condition: what is not selected changes nothing, a short region degrades, a `FRAME` that ends too early is read as far
-- as it goes (30_encoding.md R80, R102; assumptions 7, 32, 33).
theorem test_rsmStart_notSelected : exec .rsmStart (accWith [0x55] [0x55]) = .next (accWith [0x55] [0x55]) := rfl
theorem test_rsmEmit_notSelected : nextIs (exec .rsmEmit (accWith [0x55, 0x00, 0x07, 0x07, 0x01, 0x7A, 0xD5] []))
    (fun t => decide (t.rsm = .accumulating ∧ t.telOut = [])) = true := by decide +kernel
theorem test_erp1Fields_short : nextIs (exec .erp1Fields (dataState [0xD5, 0x04]))
    (fun t => decide (t.fields.isOpaque = true ∧ t.fields.reason = [.erp1Short] ∧ t.fields.rorg = none)) = true := by decide +kernel
theorem test_erp2Hdrbyte_empty : nextIs (exec .erp2Hdrbyte (dataState []))
    (fun t => decide (t.fields.isOpaque = true ∧ t.fields.reason = [.erp2Short] ∧ t.fields.ac = none)) = true := by decide +kernel
theorem test_esp3Hdr_shortFrame : nextIs (exec .esp3Hdr (frameState [0x55, 0x00, 0x07, 0x02]))
    (fun t => decide (t.fields.dlen = 7 ∧ t.fields.olen = 2)) = true := by decide +kernel
theorem test_erp1_status : nextIs (exec .erp1Fields (dataState [0xD5, 0x09, 0x04, 0x00, 0x8F, 0xE0, 0x8F]))
    (fun t => decide (t.fields.rpt = some 15 ∧ t.fields.dl = some ⟨1, 1⟩)) = true := by decide +kernel
theorem test_erp2_did :
    nextIs (exec (.erp2Ac2 0 1) (dataState [0x41, 0x04, 0x00, 0x8F, 0xE0, 0xFF, 0xFF, 0xFF, 0xFF, 0x00, 0x0B]))
    (fun t => decide (t.fields.did = some 0xFFFFFFFF ∧ t.fields.oid = some 0x04008FE0)) = true := by decide +kernel
theorem test_erp2_eha : nextIs (exec .erp2Decode (dataState [0x12, 0x8F, 0xE0, 0x01, 0x00, 0x00, 0x80, 0x08, 0x2F]))
    (fun t => decide (t.fields.reason = [.erp2Eha] ∧ t.fields.crcsubOk = some true)) = true := by decide +kernel
theorem test_erp2_acReserved : nextIs (exec .erp2Decode (dataState [0x82, 0x8F, 0xE0, 0x01, 0x00, 0x00, 0x80, 0x08, 0xA7]))
    (fun t => decide (t.fields.reason = [.erp2AcReserved] ∧ t.fields.rorg = some 0xA5)) = true := by decide +kernel
/-- A Data_DL that an earlier operation sliced: the step of R183 does not decode it. -/
theorem test_erp2_reserved_oldDl :
    nextIs (exec .erp2Decode
      { State.reset with fields := { blankTelegram with frame := [0x82, 0, 0, 0, 0], data := ⟨0, 5⟩, dl := some ⟨1, 4⟩ } })
    (fun t => decide (t.fields.rorg = some 0xA5 ∧ t.fields.ti = none)) = true := by decide +kernel
theorem test_erp2_short : nextIs (exec .erp2Decode (dataState [0x02, 0x8F, 0x8E]))
    (fun t => decide (t.fields.reason = [.erp2Short] ∧ t.fields.oid = none)) = true := by decide +kernel
/-- 1BS Teach-In: a frame-level Teach-In in ERP2 (44_erp2.md R188), not in ERP1 (45_erp1.md R207). -/
theorem test_1bs_teachIn : nextIs (exec (.erp2Tt1 0 0) (dlState [0x00])) (fun t => decide (t.fields.ti = some ⟨none, none, none⟩)) = true ∧
    nextIs (exec .erp1Ti1bs (dlState [0x00])) (fun t => decide (t.fields.ti = none)) = true := by decide +kernel

/-! The dispatch and the profiles: 46_eep_dispatch.md R223, R224, R231, 47_profiles.md R243, R246. -/

theorem test_eepDecode_length : nextIs (exec (.eepDecode (.code (some 0xD50001)) [0x09, 0x00]) State.reset)
    (fun t => decide (t.fields.reason = [.eepLength] ∧ t.fields.report = ⟨[], none, false, [0x09, 0x00]⟩)) = true := by decide +kernel
theorem test_eepDecode_text : nextIs (exec (.eepDecode (.text ("a5:02 05".toList)) [0x00, 0x00, 0x80, 0x08]) State.reset)
    (fun t => decide (t.fields.report.desc = some (.temperature 199 1) ∧ t.fields.report.learn = false)) = true := by decide +kernel
theorem test_eepIsknown : nextIs (exec (.eepIsknown (.text ("a5-02-05".toList))) State.reset)
    (fun t => decide (t.fnOut = some (.bool false))) = true := by decide +kernel
theorem test_eepD50001 : nextIs (exec .eepD50001 (dlState [0xF6]))
    (fun t => decide (t.fields.report = ⟨[(.contact, .raw 0)], some .opened, true, [0xF6]⟩)) = true := by decide +kernel
theorem test_eepA50205 : nextIs (exec .eepA50205 (dlState [0x00, 0x00, 0xFE, 0x08]))
    (fun t => decide (t.fields.report.value = [(.temperatureRaw, .raw 254), (.temperature, .measured 40 255 2 1)])) = true := by
  decide +kernel
theorem test_eepUnknown : nextIs (exec (.eepUnknown none) (dlState [0x01, 0x02]))
    (fun t => decide (t.fields.report = ⟨[], none, false, [0x01, 0x02]⟩)) = true := by decide +kernel

/-- Another length than the row's: what the dispatch gives for it (46_eep_dispatch.md R227). -/
theorem test_eepD50001_length : nextIs (exec .eepD50001 (dlState [0x09, 0x00]))
    (fun t => decide (t.fields.report = ⟨[], none, false, [0x09, 0x00]⟩ ∧ t.fields.reason = [.eepLength])) = true := by decide +kernel
/-- A larger table adds a row for its entry (30_encoding.md R95). -/
theorem test_eepUnknown_largerTable : nextIs (exec (.eepUnknown (some 0xD50002))
      { dlState [0x01] with cfg := largerConfig })
    (fun t => decide (t.fields.report.desc = some .closed ∧ t.fields.report.learn = true)) = true := by decide +kernel
/-- The second formula of 47_profiles.md R247 reaches -20 at raw 0 and is -19.92... at raw 1: 80/1023 - 20 = -20380/1023. -/
theorem test_roundDecimal_negative : roundDecimal (-20) 1 1 = -200 ∧ roundDecimal (-20380) 1023 1 = -199 ∧ roundDecimal (-1) 20 1 = -1 := by
  decide
/-- `TEACHIN_4BS` and `TEACHIN_UTE` as functions written out (00_scope.md R9). -/
theorem test_teachin_table :
    teachIn4bs (.table [([0x08, 0x28, 0x0B, 0x80], ⟨some 0xD20112, none⟩)] ⟨none, some 1⟩) [0x08, 0x28, 0x0B, 0x80] =
      some ⟨some 0xD20112, none, none⟩ ∧
    teachIn4bs (.table [] ⟨none, some 1⟩) [0x08, 0x28, 0x0B, 0x80] = some ⟨none, some 1, none⟩ ∧
    teachIn4bs (.table [] ⟨none, some 1⟩) [0x08, 0x28, 0x0B, 0x88] = none ∧
    teachInUte (.table [] ⟨0xD20112, 7, ⟨0, 0, 0, 0, 1⟩⟩) [0, 0, 0, 0, 0, 0, 0] = some ⟨some 0xD20112, some 7, some ⟨0, 0, 0, 0, 1⟩⟩ := by
  decide

/-! The host's interfaces (30_encoding.md R106, 60_exceptions.md R280). -/

theorem test_teach : nextIs (step { State.reset with
      input := [.teach ⟨"00 00 04 00 8F E0".toList, "d5-00-01".toList, none, none⟩] })
    (fun t => decide (t.reg = [⟨0x04008FE0, 0xD50001, none, none, true⟩])) = true := by decide +kernel
theorem test_teach_strict : nextIs (step { State.reset with
      input := [.teach ⟨"04008FE0".toList, "F602 04".toList, none, none⟩] })
    (fun t => decide (t.reg = [] ∧ t.hostOut = [.invalid .eep])) = true := by decide +kernel

/-! Placing a word: the step after reset runs the operation (assumption 16). -/

theorem test_withFetchWord_esp3 : nextIs (step (State.reset.withFetchWord 8 0x0A))
    (fun t => decide (t.telOut.map (fun e => e.record.kind) = [.erp2, .erp2])) = true := by decide +kernel
theorem test_withFetchWord_eep : nextIs (step (State.reset.withFetchWord 24 0xA50205))
    (fun t => decide (t.telOut.map (fun e => e.record.eep) = [some 0xA50205, some 0xA50205])) = true := by decide +kernel

/-! Witnesses: for each statement with hypotheses, states and operands that meet them. -/

theorem cfgDefault_wf : cfgWf configDefault = true := by decide +kernel

theorem inv_idleWith (chunks : List Bytes) : Inv (idleWith chunks) :=
  ⟨cfgDefault_wf, rfl, memBelow_of_list _ _ (by intro c hc; cases hc), rfl, rfl, rfl⟩

/-- A partial frame with its length fields (buffer of 42_reassembler.md R148, `FLEN = 7`, `VLEN = 21`). -/
def partialFrame : Bytes := [0x55, 0x00, 0x07, 0x07, 0x01, 0x7A, 0xD5]

/-- The buffer that holds it. -/
def partialMem : Mem := memWriteBytes 65797 [] 0 partialFrame

theorem partialMem_wf : Mem.wf partialMem = true := by decide +kernel
theorem partialMem_below : ∀ c ∈ partialMem, c.1 < 65797 := by decide +kernel
theorem partialMem_sync : memRead partialMem 0 = some syncMarker := by decide +kernel
theorem partialMem_full : ∀ a, a < 7 → (memRead partialMem a).isSome = true := by decide +kernel
theorem partialFrame_vlen : vlen (accWith partialFrame []) = some 21 := by decide +kernel

theorem partialMem_prefix : memBelow 65797 partialMem := memBelow_of_list _ _ partialMem_below

theorem rsmOk_accWith (c : Bytes) (h : vlen (accWith partialFrame c) = some 21) : RsmOk (accWith partialFrame c) :=
  show 1 ≤ 7 ∧ memRead partialMem 0 = some syncMarker ∧ (∀ a, a < 7 → (memRead partialMem a).isSome = true) ∧
    (6 < 7 → ∃ v, vlen (accWith partialFrame c) = some v ∧ 7 < v) from
  ⟨by decide, partialMem_sync, partialMem_full, fun _ => ⟨21, h, by decide⟩⟩

/-- A state that waits for more bytes of a frame keeps the invariant. -/
theorem inv_accWith (c : Bytes) : Inv (accWith partialFrame c) where
  cfg := cfgDefault_wf
  mem := partialMem_wf
  below := partialMem_prefix
  reg := rfl
  fields := rfl
  rsm := rsmOk_accWith c partialFrame_vlen

theorem nextIs_witness (o : Answer) (p : State → Bool) (h : nextIs o p = true) : ∃ t, o = .next t := by
  cases o with
  | next t => exact ⟨t, rfl⟩
  | fault f => cases h
  | refused r => cases h

theorem witness_Crc8ComputeIsTheTableLoop :
    State.reset.cfg.crc8Table.getD 0 0 = 0 ∧ State.reset.cfg.crc8Table = configDefault.crc8Table := ⟨by decide, rfl⟩
theorem witness_BfBitAndFieldReadBits : ((0 : Fin 8) ≤ 7) ∧ ((7 : Fin 8) ≤ 7) ∧ ((3 : Fin 8) ≤ 3) := by decide
theorem witness_BfCatAndU16PutNumbersTogether : (7 : Nat) < 2 ^ 3 ∧ (255 : Nat) < 2 ^ 8 ∧ (0 : Nat) < 2 ^ 0 := by decide
theorem witness_BfIdnormIsTheBigEndianValue :
    ([0x8F, 0xE0, 0x01] : Bytes).length = 3 ∧ (List.replicate 1 (0 : Byte) ++ [0x8F, 0xE0, 0x01]).length = 4 ∧
    (List.replicate 2 (0 : Byte) ++ [0x04, 0x00, 0x8F, 0xE0]).length = 6 := by decide
theorem witness_VlenIsTheDeclaredLength :
    memRead (accWith frameMin []).mem 0 = some 0x55 ∧ memRead (accWith frameMin []).mem 1 = some 0x00 ∧
    memRead (accWith frameMin []).mem 2 = some 0x00 ∧ memRead (accWith frameMin []).mem 3 = some 0x00 := by decide +kernel
theorem witness_RsmNopTakesTheEmptyChunk : (accWith [0x55] []).input = .chunk [] :: [] := rfl
theorem witness_RsmStartBuffersTheWholeChunk :
    (idleWith [[0x55, 0x00]]).input = .chunk [0x55, 0x00] :: [] ∧ (idleWith [[0x55, 0x00]]).rsm = .idle ∧
    ([0x55, 0x00] : Bytes).head? = some 0x55 := by decide
theorem witness_RsmAppendStoresAtFlen :
    (accWith [0x55] [0x55]).input = .chunk [0x55] :: [] ∧ (accWith [0x55] [0x55]).rsm = .accumulating ∧ ([0x55] : Bytes) ≠ [] := by
  decide
theorem witness_RsmDropDiscardsTheWholeChunk :
    (idleWith [[0x00, 0x55]]).input = .chunk (0x00 :: [0x55]) :: [] ∧ (idleWith [[0x00, 0x55]]).rsm = .idle ∧ (0x00 : Byte) ≠ 0x55 := by
  decide
/-- After a `RSM.START` that leaves 6 bytes and after a `RSM.APPEND` that leaves 7 of 21. -/
theorem witness_RsmWaitChangesNothing :
    nextIs (exec (if (idleWith [[0x55, 0x00, 0x07, 0x07, 0x01, 0x7A]]).rsm = .idle then .rsmStart else .rsmAppend)
      (idleWith [[0x55, 0x00, 0x07, 0x07, 0x01, 0x7A]])) (fun t => decide (t.flen ≤ 6)) = true ∧
    nextIs (exec (if (accWith [0x55, 0x00, 0x07, 0x07, 0x01, 0x7A] [0xD5]).rsm = .idle then .rsmStart else .rsmAppend)
      (accWith [0x55, 0x00, 0x07, 0x07, 0x01, 0x7A] [0xD5])) (fun t => decide (vlen t = some 21 ∧ t.flen < 21)) = true := by
  decide +kernel
theorem witness_RsmEmitHandsTheFrameOver :
    vlen (accWith frameMin []) = some 7 ∧ (accWith frameMin []).flen = 7 ∧
    memReadBytes (accWith frameMin []).mem 0 7 = some frameMin ∧ frameMin.head? = some 0x55 := by decide +kernel
theorem witness_RsmOverrunDiscardsTheBuffer :
    vlen (accWith (frameMin ++ [0x55]) []) = some 7 ∧ 6 < (accWith (frameMin ++ [0x55]) []).flen ∧
    7 < (accWith (frameMin ++ [0x55]) []).flen := by decide +kernel
theorem witness_StepRunsTheDecodedOperations :
    (idleWith [[0x55]]).input = .chunk [0x55] :: [] ∧ (idleWith [[0x55]]).rsm = .idle := by decide

theorem frameMin_wellFormed : WellFormedFrame configDefault frameMin := ⟨by decide, by decide⟩
theorem frameErp2_wellFormed : WellFormedFrame configDefault frameErp2 := ⟨by decide, by decide⟩

theorem witness_ChunkLongerThanItsFrameIsLost :
    Inv (idleWith [frameMin ++ [0x55]]) ∧ (idleWith [frameMin ++ [0x55]]).rsm = .idle ∧
    WellFormedFrame (idleWith [frameMin ++ [0x55]]).cfg frameMin ∧ ([0x55] : Bytes) ≠ [] ∧
    (idleWith [frameMin ++ [0x55]]).input = .chunk (frameMin ++ [0x55]) :: [] :=
  ⟨inv_idleWith _, rfl, frameMin_wellFormed, by decide, rfl⟩
theorem witness_OneByteChunksNeverOverrun :
    Inv (accWith [0x55, 0x00, 0x07, 0x07, 0x01, 0x7A, 0xD5] [0x09]) ∧
    (accWith [0x55, 0x00, 0x07, 0x07, 0x01, 0x7A, 0xD5] [0x09]).input = .chunk [0x09] :: [] := ⟨inv_accWith _, rfl⟩
theorem witness_OneByteChunksNeverOverrun_drop :
    Inv (idleWith [[0x00]]) ∧ (idleWith [[0x00]]).input = .chunk [0x00] :: [] ∧ (idleWith [[0x00]]).rsm = .idle :=
  ⟨inv_idleWith _, rfl, rfl⟩

/-- The smallest frame cut in three. -/
def cutMin : List Bytes := [[0x55, 0x00], [0x00, 0x00, 0x05], [0x1B, 0x00]]

theorem witness_ChunkingInvariance :
    Inv (idleWith cutMin) ∧ (idleWith cutMin).rsm = .idle ∧ WellFormedFrame (idleWith cutMin).cfg frameMin ∧ IsCut frameMin cutMin ∧
    (idleWith cutMin).input = cutMin.map .chunk ++ [] :=
  ⟨inv_idleWith _, rfl, frameMin_wellFormed, ⟨by decide, by decide⟩, rfl⟩
theorem witness_ByteSerialStreamEmitsEveryFrame :
    Inv (idleWith ([frameMin, frameErp2].flatten.map (fun b => [b]))) ∧
    (idleWith ([frameMin, frameErp2].flatten.map (fun b => [b]))).rsm = .idle ∧
    (∀ f ∈ [frameMin, frameErp2], WellFormedFrame (idleWith ([frameMin, frameErp2].flatten.map (fun b => [b]))).cfg f) ∧
    (idleWith ([frameMin, frameErp2].flatten.map (fun b => [b]))).input =
      [frameMin, frameErp2].flatten.map (fun b => .chunk [b]) ++ [] := by
  refine ⟨inv_idleWith _, rfl, ?_, rfl⟩
  intro f hf
  rcases List.mem_cons.1 hf with rfl | hf
  · exact frameMin_wellFormed
  · rw [List.mem_singleton.1 hf]; exact frameErp2_wellFormed

theorem witness_Esp3HeaderIsReadAndChecked :
    (frameState frameMin).fields.frame = 0x55 :: 0x00 :: 0x00 :: 0x00 :: 0x05 :: 0x1B :: [0x00] := rfl
theorem witness_Esp3OtherIsOpaque :
    (regionState frameOther 1 0 0x02).fields.frame = [0x55, 0x00, 0x01, 0x00, 0x02, 0x65] ++ ([0x00] ++ [0x00]) ∧
    ([0x55, 0x00, 0x01, 0x00, 0x02, 0x65] : Bytes).length = 6 ∧
    ([0x00] : Bytes).length = (regionState frameOther 1 0 0x02).fields.dlen.toNat := by decide
theorem witness_Esp3OptReadsTheSignalStrength :
    (regionState frameErp1 7 7 0x01).fields.frame = frameErp1.take 13 ++ ([0x01, 0xFF, 0xFF, 0xFF, 0xFF, 0x2D, 0x00] ++ [0x62]) ∧
    (frameErp1.take 13).length = 6 + (regionState frameErp1 7 7 0x01).fields.dlen.toNat ∧
    ([0x01, 0xFF, 0xFF, 0xFF, 0xFF, 0x2D, 0x00] : Bytes).length = (regionState frameErp1 7 7 0x01).fields.olen.toNat := by decide
theorem witness_Esp3Crc8dChecksDataAndOptional :
    (regionState frameMin 0 0 0x05).fields.frame = [0x55, 0x00, 0x00, 0x00, 0x05, 0x1B] ++ ([] ++ 0x00 :: []) ∧
    ([0x55, 0x00, 0x00, 0x00, 0x05, 0x1B] : Bytes).length = 6 ∧
    ([] : Bytes).length = (regionState frameMin 0 0 0x05).fields.dlen.toNat + (regionState frameMin 0 0 0x05).fields.olen.toNat := by
  decide
theorem witness_Erp2SubcrcChecksTheSubframe :
    dataBytes (dataState [0x00]).fields = [] ++ [0x00] ∧ dataBytes (dataState []).fields = [] := by decide
theorem witness_Erp2HdrbyteSplitsTheHeader : dataBytes (dataState [0x62]).fields = 0x62 :: [] := by decide
/-- One row with and one without a destination id, at the least length. -/
theorem witness_Erp2AddressControlSlicesTheIds :
    (dataBytes (dataState [0x41, 0x04, 0x00, 0x8F, 0xE0, 0xFF, 0xFF, 0xFF, 0xFF, 0x0B]).fields =
        0x41 :: ([0x04, 0x00, 0x8F, 0xE0] ++ ([0xFF, 0xFF, 0xFF, 0xFF] ++ [0x0B])) ∧
      State.reset.cfg.acTable[2]? = some (some ⟨.w4, true⟩)) ∧
    (dataBytes (dataState [0x02, 0x8F, 0xE0, 0x01, 0x18]).fields = 0x02 :: ([0x8F, 0xE0, 0x01] ++ ([] ++ [0x18])) ∧
      State.reset.cfg.acTable[0]? = some (some ⟨.w3, false⟩)) := by decide
/-- A table that gives a value of `ERP2.ACRSV` widths. -/
theorem witness_Erp2AddressControlSlicesTheIds_acrsv :
    largerConfig.acTable[4 + (0 : BitVec 2).toNat]? = some (some ⟨.w3, false⟩) ∧
    dataBytes (dataState [0x82, 0x8F, 0xE0, 0x01, 0x18]).fields = 0x82 :: ([0x8F, 0xE0, 0x01] ++ ([] ++ [0x18])) := by decide
theorem witness_Erp2GuardsAreOpaque_reserved : State.reset.cfg.acTable[4 + (0 : BitVec 2).toNat]? = some none := by decide
/-- A table that reserves values of `ERP2.AC0` to `ERP2.AC3`. -/
theorem witness_Erp2GuardsAreOpaque_reservedLow : largerConfig.acTable[0]? = some none ∧ largerConfig.acTable[2]? = some none := by
  decide
theorem witness_Erp2GuardsAreOpaque_short :
    dataBytes (dataState []).fields = [] ∧
    ∃ s : State, dataBytes s.fields ≠ [] ∧ s.fields.ac = some 0 ∧ s.cfg.acTable[(0 : BitVec 3).toNat]? = some (some ⟨.w3, false⟩) ∧
      (dataBytes s.fields).length = 4 ∧ (dataBytes s.fields).length < widthBytes .w3 + (if false then 4 else 0) + 2 :=
  ⟨by decide, { State.reset with fields := { blankTelegram with frame := [2, 1, 1, 1], data := ⟨0, 4⟩, ac := some 0 } }, by decide⟩
theorem witness_Erp2DecodeFillsEveryRegister :
    dataBytes (dataState [0x02, 0x8F, 0xE0, 0x01, 0x00, 0x00, 0x80, 0x08, 0x18]).fields =
      0x02 :: ([0x8F, 0xE0, 0x01] ++ ([] ++ ([0x00, 0x00, 0x80, 0x08] ++ [0x18]))) ∧
    State.reset.cfg.acTable[((0x02 : Byte).extractLsb' 5 3).toNat]? = some (some ⟨.w3, false⟩) ∧ (0x02 : Byte).getLsbD 4 = false ∧
    ([0x8F, 0xE0, 0x01] : Bytes).length = widthBytes .w3 ∧ ([] : Bytes).length = (if false then 4 else 0) := by decide
/-- The four guards: an empty region, a reserved Address Control, an extended header, a region one byte too short. -/
theorem witness_Erp2DecodeDegradesForTheFirstReason :
    dataBytes (dataState []).fields = [] ∧
    State.reset.cfg.acTable.getD ((0x82 : Byte).extractLsb' 5 3).toNat none = none ∧
    State.reset.cfg.acTable.getD ((0x12 : Byte).extractLsb' 5 3).toNat none = some ⟨.w3, false⟩ ∧ (0x12 : Byte).getLsbD 4 = true ∧
    dataBytes (dataState [0x02, 0x8F, 0xE0, 0x01]).fields = 0x02 :: [0x8F, 0xE0, 0x01] ∧
    (0x02 : Byte).getLsbD 4 = false ∧ ([0x02, 0x8F, 0xE0, 0x01] : Bytes).length < widthBytes .w3 + (if false then 4 else 0) + 2 := by
  decide
theorem witness_Erp1ShortIsOpaque : (dataBytes (dataState [0xD5, 0x04, 0x00, 0x8F, 0xE0, 0x00]).fields).length < 7 := by decide
theorem witness_Erp1FieldsSliceTheTrailer :
    dataBytes (dataState [0xD5, 0x09, 0x04, 0x00, 0x8F, 0xE0, 0x00]).fields =
      0xD5 :: ([0x09] ++ ([0x04, 0x00, 0x8F, 0xE0] ++ [0x00])) ∧
    ([0x04, 0x00, 0x8F, 0xE0] : Bytes).length = 4 ∧ ([0x09] : Bytes) ≠ [] := by decide
theorem witness_Erp1Ti4bsReadsTheTeachIn :
    (dlState [0x08, 0x28, 0x0B, 0x80]).fields.dl = some ⟨0, 4⟩ ∧
    dlBytes (dlState [0x08, 0x28, 0x0B, 0x80]).fields = [0x08, 0x28, 0x0B, 0x80] ∧ (0x80 : Byte).getLsbD 3 = false ∧
    (0x08 : Byte).getLsbD 3 = true ∧ (dlBytes (dlState [0x08]).fields).length ≠ 4 ∧
    State.reset.cfg.teachin4bs = configDefault.teachin4bs ∧ State.reset.fields.dl = none ∧
    largerConfig.teachin4bs = .table [] ⟨none, none⟩ := by decide
theorem witness_Erp1TiuteAndTheRorgsWithoutTeachIn :
    (dlState [0xA0, 0x01, 0x46, 0x00, 0x12, 0x01, 0xD2]).fields.dl = some ⟨0, 7⟩ ∧
    dlBytes (dlState [0xA0, 0x01, 0x46, 0x00, 0x12, 0x01, 0xD2]).fields = [0xA0, 0x01, 0x46, 0x00, 0x12, 0x01, 0xD2] ∧
    State.reset.cfg.teachinUte = configDefault.teachinUte ∧ State.reset.fields.dl = none ∧
    largerConfig.teachinUte = .table [] ⟨0, 0, ⟨0, 0, 0, 0, 0⟩⟩ := by decide
theorem witness_Erp1DecodeFillsEveryRegister :
    dataBytes (dataState [0xA5, 0x00, 0x00, 0x80, 0x08, 0x04, 0x00, 0x8F, 0xE0, 0x00]).fields =
      0xA5 :: ([0x00, 0x00, 0x80, 0x08] ++ ([0x04, 0x00, 0x8F, 0xE0] ++ [0x00])) ∧
    ([0x04, 0x00, 0x8F, 0xE0] : Bytes).length = 4 ∧ ([0x00, 0x00, 0x80, 0x08] : Bytes) ≠ [] := by decide
theorem witness_OperationsOutsideTheirCondition_state :
    (∀ c rest, State.reset.input ≠ .chunk c :: rest) ∧ State.reset.flen ≤ 6 ∧ dataBytes State.reset.fields = [] ∧
    (dataBytes (dataState [0x09]).fields).length < 7 ∧
    7 ≤ (dataBytes (dataState [0xD5, 0x09, 0x04, 0x00, 0x8F, 0xE0, 0x00]).fields).length :=
  ⟨(by intro c rest h; cases h), by decide, by decide, by decide, by decide⟩
/-- A region one byte too short for an Address Control, and one that is long enough for the Address Control that was read. -/
theorem witness_OperationsOutsideTheirCondition_region :
    ((dataBytes (dataState [0x02, 0x8F, 0xE0, 0x01]).fields).length < widthBytes .w3 + (if false then 4 else 0) + 2 ∧
      State.reset.cfg.acTable[0]? = some (some ⟨.w3, false⟩)) ∧
    dataBytes (dataState [0x02]).fields ≠ [] ∧ (dataState [0x02]).fields.ac = none := by decide
theorem witness_OperationsOutsideTheirCondition_rsm :
    ((idleWith [[0x00]]).input = .chunk [0x00] :: [] ∧ ([0x00] : Bytes) ≠ [] ∧ ([0x00] : Bytes).head? ≠ some 0x55 ∧
      (idleWith [[0x00]]).rsm ≠ .accumulating ∧ ([0x00] : Bytes).head? ≠ some 0x01) ∧
    ((accWith [0x55] [0x00]).input = .chunk [0x00] :: [] ∧ (accWith [0x55] [0x00]).rsm ≠ .idle) ∧
    ∃ s : State, 6 < s.flen ∧ vlen s = none := ⟨by decide, by decide, { State.reset with flen := 7 }, by decide⟩
/-- `VLEN = 7`: with 7, 8 and 0 bytes counted, with a byte missing, and with another first byte. -/
theorem witness_OperationsOutsideTheirCondition_length :
    (vlen (accWith frameMin []) = some 7 ∧ 6 < (accWith frameMin []).flen ∧ 7 ≤ (accWith frameMin []).flen) ∧
    (vlen { accWith frameMin [] with flen := 8 } = some 7 ∧ (8 : Nat) ≠ 7) ∧
    (vlen (accWith [0x55, 0x00, 0x00, 0x00] []) = some 7 ∧ memReadBytes (accWith [0x55, 0x00, 0x00, 0x00] []).mem 0 7 = none) ∧
    (vlen (accWith [0x54, 0x00, 0x00, 0x00, 0x05, 0x1B, 0x00] []) = some 7 ∧
      memReadBytes (accWith [0x54, 0x00, 0x00, 0x00, 0x05, 0x1B, 0x00] []).mem 0 7 = some [0x54, 0x00, 0x00, 0x00, 0x05, 0x1B, 0x00]) := by
  decide +kernel
/-- One code for each of the four outcomes. -/
theorem witness_EepDecodeTestsInOrder :
    (∀ row ∈ State.reset.cfg.profileTable, row.code ≠ 0xF60204) ∧
    State.reset.cfg.profileTable.find? (fun row => decide (row.code = 0xD50001)) = some ⟨0xD50001, 1, .contactSwitch⟩ ∧
    ([0x09, 0x00] : Bytes).length ≠ 1 ∧ ([0x09] : Bytes).length = 1 ∧
    State.reset.cfg.profileTable.find? (fun row => decide (row.code = 0xA50205)) = some ⟨0xA50205, 4, .temperature⟩ ∧
    ([0x00, 0x00, 0x80, 0x08] : Bytes).length = 4 ∧
    largerConfig.profileTable.find? (fun row => decide (row.code = 0xF60204)) = some ⟨0xF60204, 1, .other 0⟩ := by decide
theorem witness_EepDecodeNormalisesText :
    eepTextOk ("F6-02-04Z".toList) = false ∧
    (eepTextOk ("F6-02".toList) = true ∧ (("F6-02".toList).filterMap hexVal).length ≠ 6) ∧
    (eepTextOk ("F6:02:04".toList) = true ∧ (("F6:02:04".toList).filterMap hexVal).length = 6) := by decide +kernel
theorem witness_EepD50001ReadsContactAndLearn : (dlState [0x09]).fields.dl = some ⟨0, 1⟩ ∧ dlBytes (dlState [0x09]).fields = [0x09] ∧
    (dlBytes (dlState [0x09, 0x00]).fields).length ≠ 1 ∧ State.reset.fields.dl = none := by
  decide
theorem witness_EepA50205ReadsTheTemperature :
    (dlState [0x00, 0x00, 0x80, 0x08]).fields.dl = some ⟨0, 4⟩ ∧
    dlBytes (dlState [0x00, 0x00, 0x80, 0x08]).fields = [0x00, 0x00, 0x80, 0x08] ∧ State.reset.cfg.valueDigits = 1 ∧
    (dlBytes (dlState [0x09]).fields).length ≠ 4 ∧ State.reset.fields.dl = none := by decide
theorem witness_EepUnknownKeepsTheRawBytes :
    (dlState []).fields.dl = some ⟨0, 0⟩ ∧ State.reset.fields.dl = none ∧
    (∀ row ∈ State.reset.cfg.profileTable, row.code ≠ 0xF60204) ∧
    ∃ row ∈ largerConfig.profileTable, row.code = 0xD50002 := by decide
theorem witness_PortCallsChangeOnlyTheAnswer :
    ({ State.reset with input := [.port (.bfBit 0x09 3)] } : State).input = .port (.bfBit 0x09 3) :: [] ∧
    ({ State.reset with input := [.port .rsmStep] } : State).input = .port .rsmStep :: [] ∧
    ∃ u, exec (.bfBit 0x09 3) { State.reset with input := [] } = .next u := ⟨rfl, rfl, _, rfl⟩
theorem witness_HostInterfacesWriteOneRecord :
    normId ("04 00 8F E0".toList) = some 0x04008FE0 ∧ teachEep ("d5-00-01".toList) = some 0xD50001 ∧
    (List.replicate 50 'x').length ≤ 50 ∧ 50 < (List.replicate 51 'x').length ∧ normId ("04008F".toList ++ ['Z']) = none ∧
    teachEep ("F602 04".toList) = none ∧
    regLookup [⟨0x04008FE0, 0xD50001, none, none, true⟩] 0x04008FE0 = some ⟨0x04008FE0, 0xD50001, none, none, true⟩ ∧
    regLookup [] 0x04008FE0 = none := by
  decide +kernel
theorem witness_TextsOfIdsAndProfilesAtTheHost :
    (∃ c ∈ ['0', '4', '0', '0', '8', 'G'], hexVal c = none) ∧ ['0', '4', '0', '0', '8'].length = 5 ∧
    (∀ c ∈ ['8', 'F', 'E', '0', '0', '1'], hexVal c ≠ none) ∧ ['8', 'F', 'E', '0', '0', '1'].length = 6 ∧
    ['8', 'F', 'E', '0', '0', '1'] = ['8', 'F', '-', 'E', '0', ' ', '0', '1'].filter (fun c => !(isSpace c) && decide (c ≠ '-')) := by
  refine ⟨⟨'G', by decide, rfl⟩, rfl, ?_, rfl, rfl⟩
  simp [hexVal]
theorem witness_InvHoldsAtResetAtAnyTime :
    ({ accWith [0x55] [] with input := [.reset] } : State).input = .reset :: [] ∧ cfgWf (accWith [0x55] []).cfg = true :=
  ⟨rfl, by decide +kernel⟩
theorem witness_EveryStepKeepsTheInvariant :
    Inv (accWith partialFrame [0x09]) ∧
    ∃ t, step (accWith partialFrame [0x09]) = .next t := ⟨inv_accWith _, nextIs_witness _ (fun _ => true) (by decide +kernel)⟩
theorem witness_EveryChunkCompletes :
    Inv (accWith partialFrame (List.replicate 30 0x55)) ∧
    (accWith partialFrame (List.replicate 30 0x55)).input = .chunk (List.replicate 30 0x55) :: [] :=
  ⟨inv_accWith _, by unfold accWith; rfl⟩
theorem witness_EventsComeInPairs : ∃ t, step (idleWith [[0x55]]) = .next t :=
  nextIs_witness _ (fun _ => true) (by decide +kernel)
/-- Two registries that differ elsewhere. -/
theorem witness_RecordDependsOnOneRegistryEntry :
    ∃ r, decodeFrame configDefault [] frameErp2 = some r ∧
      ∀ i, r.oid = some i → regLookup [⟨0x01, 0xA50205, none, none, true⟩] i = regLookup [] i := by
  obtain ⟨r, h, ho⟩ := recordIs_witness [] frameErp2 (fun r => decide (r.oid = some 0x8FE001)) (by decide +kernel)
  refine ⟨r, h, ?_⟩
  intro i hi
  rw [of_decide_eq_true ho] at hi
  obtain rfl := Option.some.inj hi
  decide
theorem witness_HeaderCrcByteChangesNothingElse :
    ([0x55, 0x00, 0x09, 0x00, 0x0A] : Bytes).length = 5 ∧
    ∃ r, decodeFrame configDefault [] ([0x55, 0x00, 0x09, 0x00, 0x0A] ++ 0x0C :: frameErp2.drop 6) = some r := by
  obtain ⟨r, h, _⟩ := recordIs_witness [] frameErp2 (fun _ => true) (by decide +kernel)
  exact ⟨rfl, r, h⟩
theorem witness_ReasonsFollowTheFixedOrder : ∃ r, decodeFrame configDefault [] frameErp2 = some r := by
  obtain ⟨r, h, _⟩ := recordIs_witness [] frameErp2 (fun _ => true) (by decide +kernel)
  exact ⟨r, h⟩
theorem witness_OpaqueRecordsAreUnknown : ∃ r, decodeFrame configDefault [] frameOther = some r ∧ r.isOpaque = true :=
  recordIs_witness [] frameOther Telegram.isOpaque (by decide +kernel)
/-- A 4BS data telegram and a 4BS Teach-In. -/
theorem witness_FourBsLearnBitDecidesTheTeachIn :
    (∃ r, decodeFrame configDefault [] frameErp2 = some r ∧
      decide (r.kind = .erp2 ∧ r.tt = some 2 ∧ dlBytes r = [0x00, 0x00, 0x80, 0x08]) = true) ∧
    (∃ r, decodeFrame configDefault []
        (mkFrame configDefault 0x01 [0xA5, 0x08, 0x28, 0x0B, 0x80, 0x04, 0x00, 0x8F, 0xE0, 0x00]) = some r ∧
      decide (r.kind = .erp1 ∧ r.rorg = some 0xA5 ∧ dlBytes r = [0x08, 0x28, 0x0B, 0x80]) = true) :=
  ⟨recordIs_witness _ _ _ (by decide +kernel), recordIs_witness _ _ _ (by decide +kernel)⟩
theorem witness_DecodeOfEncode : (Instr.erp2Acrsv 3 1 15).wf = true ∧ encode (.erp2Acrsv 3 1 15) = some [0xFF] := by decide
theorem witness_EncodeOfDecode : decode .erp2Tt [0xFF] = .ok (.erp2Ttext 7 1) := by decide

end Sys2Proof.Tests
end

section
/-! PROOFS. The state and its ports (spec/10_state.md): `VLEN`, the function ports, reset, and the invariant that every step keeps. -/

namespace Sys2Proof.Machine

/-! `VLEN`. -/

/-- Two bytes make a number of 16 bits in either byte order (41_bitfield.md R134). -/
theorem bfU16_lt (order : LenOrder) (bytes : Bytes) (a : Nat) : bfU16 order bytes a < 65536 := by
  have hfirst := (byteAt bytes a).isLt
  have hsecond := (byteAt bytes (a + 1)).isLt
  cases order <;> simp only [bfU16] <;> omega

/-- The range of `VLEN` (30_encoding.md R82). -/
theorem vlenOf_bounds (order : LenOrder) (head : Bytes) : 7 ≤ vlenOf order head ∧ vlenOf order head ≤ 65797 := by
  have hlen := bfU16_lt order head 1
  have hopt := (byteAt head 3).isLt
  unfold vlenOf
  omega

theorem vlen_le {s : State} {v : Nat} (h : vlen s = some v) : v ≤ 65797 := by
  obtain ⟨head, -, rfl⟩ := Option.map_eq_some_iff.1 h
  exact (vlenOf_bounds _ head).2

/-- Where the buffer holds its first four bytes, `VLEN` is the length that they declare. -/
theorem vlen_of_memRead {s : State} {b0 b1 b2 b3 : Byte} (h0 : memRead s.mem 0 = some b0) (h1 : memRead s.mem 1 = some b1)
    (h2 : memRead s.mem 2 = some b2) (h3 : memRead s.mem 3 = some b3) :
    vlen s = some (vlenOf s.cfg.lenOrder [b0, b1, b2, b3]) := by
  simp [vlen, memReadBytes, h0, h1, h2, h3]

/-- `VLEN` reads the parameters and the buffer only. -/
theorem vlen_congr {s t : State} (hcfg : t.cfg = s.cfg) (hmem : t.mem = s.mem) : vlen t = vlen s := by
  simp only [vlen, hcfg, hmem]

/-- Settles O7: the four reads give the declared length, and its range is that of a 16-bit number and a byte. -/
theorem vlenIsTheDeclaredLength : Obligations.VlenIsTheDeclaredLength := by
  intro s b0 b1 b2 b3 h0 h1 h2 h3
  obtain ⟨hmin, hmax⟩ := vlenOf_bounds s.cfg.lenOrder [b0, b1, b2, b3]
  refine ⟨_, vlen_of_memRead h0 h1 h2 h3, hmin, hmax, ?_⟩
  cases s.cfg.lenOrder <;> rfl

/-! The function ports. -/

/-- What an operation with a function port does when it answers: it writes the port, and at most the field registers besides
(10_state.md R39). -/
theorem exec_port_next {i : Instr} {s u : State} (hport : isPort i = true) (h : exec i s = .next u) :
    ∃ f r, u = answerPort (s.setFields f) r := by
  cases i
  case crc8Compute | crc8Verify | bfBit | bfField | bfCat | bfU16 | bfSlice | bfIdnorm =>
    exact ⟨s.fields, _, (Host.Outcome.next.inj h).symm⟩
  case eepDecode e payload =>
    cases e with
    | code c => exact ⟨_, _, (Host.Outcome.next.inj h).symm⟩
    | text t =>
      simp only [exec, execEepDecode] at h
      split at h
      · exact ⟨_, _, (Host.Outcome.next.inj h).symm⟩
      · cases h
  case eepIsknown e => cases e <;> exact ⟨s.fields, _, (Host.Outcome.next.inj h).symm⟩
  all_goals cases hport

/-- A call of a function port that answers changes the port only. -/
theorem portStep_next {i : Instr} {s t : State} (h : portStep i s = .next t) : ∃ r, t = answerPort s r := by
  obtain ⟨hport, u, hu, rfl⟩ := (portStep_eq_next i s t).1 h
  obtain ⟨f, r, rfl⟩ := exec_port_next hport hu
  exact ⟨r, rfl⟩

/-- The operations that have a port, listed as R39 does. -/
theorem isPort_iff (i : Instr) :
    isPort i = true ↔
      (∃ bytes, i = .crc8Compute bytes) ∨ (∃ k bytes, i = .crc8Verify k bytes) ∨ (∃ b idx, i = .bfBit b idx) ∨
      (∃ b hi lo, i = .bfField b hi lo) ∨ (∃ a wa b wb, i = .bfCat a wa b wb) ∨ (∃ bytes a, i = .bfU16 bytes a) ∨
      (∃ bytes a b, i = .bfSlice bytes a b) ∨ (∃ id, i = .bfIdnorm id) ∨ (∃ e payload, i = .eepDecode e payload) ∨
      (∃ e, i = .eepIsknown e) := by
  cases i <;> simp [isPort]

/-- The step at a port call is that call. -/
theorem step_port {s : State} {i : Instr} {rest : List Input} (hin : s.input = .port i :: rest) :
    step s = portStep i { s with input := rest } := by
  have htake : takeInput s = { s with input := rest } := by simp [takeInput, hin]
  rw [step_eq, hin, ← htake]

/-- Settles O46: an operation with a port writes the port and at most the registers, and the call puts the registers back. -/
theorem portCallsChangeOnlyTheAnswer : Obligations.PortCallsChangeOnlyTheAnswer := by
  intro s i rest hin
  rw [step_port hin]
  refine ⟨isPort i = true, isPort_iff i, fun hno => if_neg hno, fun hport u hu => ?_⟩
  have hstep := (portStep_eq_next i _ _).2 ⟨hport, u, hu, rfl⟩
  obtain ⟨f, r, rfl⟩ := exec_port_next hport hu
  exact ⟨hstep, Option.some_ne_none r⟩

/-! Reset. -/

/-- After a reset the invariant holds, whatever the parameters, the undelivered input and the count of free values are. -/
theorem inv_reset (cfg : Config) (input : List Input) (n : Nat) (hcfg : cfgWf cfg = true) :
    Inv { State.reset with cfg := cfg, input := input, freeCount := n } where
  cfg := hcfg
  mem := rfl
  below _ _ h := by cases h
  reg := rfl
  fields := rfl
  rsm := rfl

/-- The default parameters have the shapes of R9. -/
theorem cfgWf_configDefault : cfgWf configDefault = true := by decide +kernel

/-- Settles O49: the blank state satisfies each part of the invariant under all parameters of the right shapes. -/
theorem invHoldsAtResetAtAnyTime : Obligations.InvHoldsAtResetAtAnyTime := by
  refine ⟨inv_reset configDefault [] 0 cfgWf_configDefault, rfl, rfl, rfl, rfl, rfl, fun s rest hin => ⟨?_, inv_reset _ _ _⟩⟩
  have htail : s.input.tail = rest := by rw [hin]; rfl
  rw [step_eq, hin, ← htail]
  rfl

/-! The host's interfaces. -/

/-- A host call answers, and writes the registry at most by storing one record (60_exceptions.md R280). -/
def HostEffect (s t : State) : Prop := (∃ r, t = replyHost s r) ∨ ∃ d, t = storeDevice d s

theorem teach_effect (req : TeachReq) (s : State) : HostEffect s (teach req s) := by
  unfold teach
  split
  · exact .inl ⟨_, rfl⟩
  · split
    · exact .inl ⟨_, rfl⟩
    · split
      · split
        · exact .inr ⟨_, rfl⟩
        · exact .inl ⟨_, rfl⟩
      · exact .inl ⟨_, rfl⟩

theorem rename_effect (id : Text) (name : Option Text) (s : State) : HostEffect s (rename id name s) := by
  unfold rename
  split
  · exact .inl ⟨_, rfl⟩
  · split
    · split
      · exact .inl ⟨_, rfl⟩
      · exact .inr ⟨_, rfl⟩
    · exact .inl ⟨_, rfl⟩

theorem getDevice_effect (id : Text) (s : State) : HostEffect s (getDevice id s) := by
  unfold getDevice
  split <;> exact .inl ⟨_, rfl⟩

theorem getAll_effect (s : State) : HostEffect s (getAll s) := .inl ⟨_, rfl⟩

/-! One chunk step. -/

/-- What `RSM.STEP` does with an offered chunk, by the chunk and the state of the Reassembler: it takes an empty chunk, drops one that
does not begin with the sync marker in `Idle`, and runs the length test after any other (42_reassembler.md R141). -/
theorem execRsmStep_cases {s : State} {c : Bytes} (h : offeredChunk s = some c) :
    (c = [] ∧ execRsmStep s = .next (takeInput s)) ∨
    (s.rsm = .idle ∧ execRsmStep s = .next (pulse (takeInput s) (.drop c.length))) ∨
    (s.rsm = .idle ∧ c.head? = some syncMarker ∧ execRsmStep s = lengthTest (storeChunk 0 c (takeInput s))) ∨
    (s.rsm = .accumulating ∧ c ≠ [] ∧ execRsmStep s = lengthTest (storeChunk s.flen c (takeInput s))) := by
  rw [execRsmStep_eq s c h]
  cases c with
  | nil => exact .inl ⟨rfl, by simp [execRsmNop, h]⟩
  | cons b bs =>
    cases hr : s.rsm with
    | idle =>
      by_cases hb : b = syncMarker
      · exact .inr (.inr (.inl ⟨rfl, by simp [hb], by simp [execRsmStart, h, hr, hb]⟩))
      · exact .inr (.inl ⟨rfl, by simp [execRsmDrop, h, hr, hb]⟩)
    | accumulating => exact .inr (.inr (.inr ⟨rfl, by simp, by simp [execRsmAppend, h, hr]⟩))

/-! The invariant. -/

/-- The part of the invariant that does not speak of the Reassembler's state and count. -/
structure Canonical (s : State) : Prop where
  cfg : cfgWf s.cfg = true
  mem : Mem.wf s.mem = true
  below : memBelow s.cfg.bufCap s.mem
  reg : regWf s.reg = true
  fields : s.fields = blankTelegram

/-- Between an append and its length test: as in `Accumulating`, but the frame-so-far may have reached or passed the length it declares,
and the saturated count may lie beyond what the buffer can hold. -/
structure Appended (s : State) : Prop extends Canonical s where
  rsm : s.rsm = .accumulating
  pos : 1 ≤ s.flen
  sync : memRead s.mem 0 = some syncMarker
  held : ∀ a, a < s.flen → a < s.cfg.bufCap → (memRead s.mem a).isSome = true

theorem Inv.canonical {s : State} (h : Inv s) : Canonical s := ⟨h.cfg, h.mem, h.below, h.reg, h.fields⟩

theorem Canonical.inv {s : State} (h : Canonical s) (hr : RsmOk s) : Inv s := ⟨h.cfg, h.mem, h.below, h.reg, h.fields, hr⟩

/-- A state that differs in the registry and the ports only meets the invariant if its registry is canonical. -/
theorem Inv.of_frame {s t : State} (h : Inv s) (hcfg : t.cfg = s.cfg) (hmem : t.mem = s.mem) (hfields : t.fields = s.fields)
    (hrsm : t.rsm = s.rsm) (hflen : t.flen = s.flen) (hreg : regWf t.reg = true) : Inv t where
  cfg := hcfg ▸ h.cfg
  mem := hmem ▸ h.mem
  below := by rw [hcfg, hmem]; exact h.below
  reg := hreg
  fields := hfields.trans h.fields
  rsm := by
    have hr := h.rsm
    unfold RsmOk at hr ⊢
    rwa [hrsm, hflen, hmem, vlen_congr hcfg hmem]

/-- A state that is idle with nothing buffered meets the invariant if the rest is canonical. -/
theorem inv_toIdle {s : State} (h : Canonical s) : Inv (toIdle s) := ⟨h.cfg, h.mem, h.below, h.reg, h.fields, rfl⟩

theorem takeInput_inv {s : State} (h : Inv s) : Inv (takeInput s) := h.of_frame rfl rfl rfl rfl rfl h.reg

theorem pulse_inv {s : State} (h : Inv s) (e : DiagEvent) : Inv (pulse s e) := h.of_frame rfl rfl rfl rfl rfl h.reg

theorem answerPort_inv {s : State} (h : Inv s) (r : FnResult) : Inv (answerPort s r) := h.of_frame rfl rfl rfl rfl rfl h.reg

theorem hostEffect_inv {s t : State} (h : Inv s) (he : HostEffect s t) : Inv t := by
  rcases he with ⟨r, rfl⟩ | ⟨d, rfl⟩
  · exact h.of_frame rfl rfl rfl rfl rfl h.reg
  · exact h.of_frame rfl rfl rfl rfl rfl (regInsert_wf d s.reg h.reg)

theorem cfgWf_bufCap {c : Config} (h : cfgWf c = true) : 65797 ≤ c.bufCap := by
  simp only [cfgWf, Bool.and_eq_true, decide_eq_true_eq] at h
  tauto

/-- The append of a chunk stores inside the frame space. -/
theorem memWriteBytes_below {cap : Nat} {m : Mem} (h : memBelow cap m) (a : Nat) (bs : Bytes) :
    memBelow cap (memWriteBytes cap m a bs) := by
  intro x b hx
  rw [memRead_memWriteBytes] at hx
  split at hx
  · rename_i hin
    exact hin.2.2
  · exact h x b hx

/-- An append at the end of the bytes held leaves no gap below the new end and the capacity. -/
theorem memWriteBytes_isSome {cap : Nat} {m : Mem} {start : Nat} (bs : Bytes)
    (h : ∀ a, a < start → (memRead m a).isSome = true) (a : Nat) (ha : a < start + bs.length) (hcap : a < cap) :
    (memRead (memWriteBytes cap m start bs) a).isSome = true := by
  rw [memRead_memWriteBytes]
  by_cases hs : a < start
  · rw [if_neg (by omega)]
    exact h a hs
  · rw [if_pos (by omega), List.getElem?_eq_getElem (by omega)]
    rfl

/-- A non-empty chunk stored at the end of the bytes held, over a buffer that then begins with the sync marker. -/
theorem storeChunk_appended {s : State} (h : Canonical s) {start : Nat} {c : Bytes} (hc : c ≠ [])
    (hheld : ∀ a, a < start → (memRead s.mem a).isSome = true)
    (hsync : memRead (memWriteBytes s.cfg.bufCap s.mem start c) 0 = some syncMarker) : Appended (storeChunk start c s) where
  cfg := h.cfg
  mem := memWriteBytes_wf _ _ _ _ h.mem
  below := memWriteBytes_below h.below start c
  reg := h.reg
  fields := h.fields
  rsm := rfl
  pos := by
    have := List.length_pos_iff.2 hc
    simp only [storeChunk_flen, flenMax]
    omega
  sync := hsync
  held a ha hcap := memWriteBytes_isSome c hheld a (by simp only [storeChunk_flen] at ha; omega) hcap

/-- The chunk that opens a frame. -/
theorem storeChunk_start_appended {s : State} (h : Canonical s) {c : Bytes} (hc : c.head? = some syncMarker) :
    Appended (storeChunk 0 c s) := by
  obtain ⟨bs, rfl⟩ := List.head?_eq_some_iff.1 hc
  have hcap := cfgWf_bufCap h.cfg
  refine storeChunk_appended h (List.cons_ne_nil _ _) (fun a ha => absurd ha (Nat.not_lt_zero a)) ?_
  rw [memRead_memWriteBytes, if_pos ⟨le_rfl, by simp, by omega⟩]
  rfl

/-- A chunk appended to an open frame. -/
theorem storeChunk_append_appended {s : State} (h : Inv s) (hr : s.rsm = .accumulating) {c : Bytes} (hc : c ≠ []) :
    Appended (storeChunk s.flen c s) := by
  have hacc := h.rsm
  simp only [RsmOk, hr] at hacc
  obtain ⟨hpos, hsync, hheld, -⟩ := hacc
  refine storeChunk_appended h.canonical hc hheld ?_
  rw [memRead_memWriteBytes, if_neg (by omega)]
  exact hsync

/-- A frame-so-far that is still short stays in `Accumulating` with the invariant. -/
theorem Appended.inv {s : State} (h : Appended s) (hle : s.flen ≤ 65797)
    (hshort : 6 < s.flen → ∃ v, vlen s = some v ∧ s.flen < v) : Inv s := by
  have hcap := cfgWf_bufCap h.cfg
  refine h.toCanonical.inv ?_
  simp only [RsmOk, h.rsm]
  exact ⟨h.pos, h.sync, fun a ha => h.held a ha (by omega), hshort⟩

/-- The hand-off of a frame ends in `Idle` with the registers blank. -/
theorem handOff_inv {frame : Bytes} {s t : State} (h : Canonical s) (ht : handOff frame s = .next t) : Inv t := by
  obtain ⟨u, hu, rfl⟩ := (handOff_eq_next frame s t).1 ht
  obtain ⟨f, q, hrun, -⟩ := execEsp3Decode_runs (s.setFields { blankTelegram with frame := frame })
  obtain rfl := Host.Outcome.next.inj (hrun.symm.trans hu)
  exact inv_toIdle ⟨h.cfg, h.mem, h.below, h.reg, rfl⟩

theorem execRsmEmit_inv {s t : State} {v : Nat} (h : Canonical s) (h6 : 6 < s.flen) (hv : vlen s = some v) (hlen : s.flen = v)
    (ht : execRsmEmit s = .next t) : Inv t := by
  rw [execRsmEmit, withVlen_some s _ _ v h6 hv, if_pos hlen] at ht
  split at ht
  · cases ht
  · exact handOff_inv h ht

theorem execRsmOverrun_inv {s t : State} {v : Nat} (h : Canonical s) (h6 : 6 < s.flen) (hv : vlen s = some v) (hlen : v < s.flen)
    (ht : execRsmOverrun s = .next t) : Inv t := by
  rw [execRsmOverrun, withVlen_some s _ _ v h6 hv, if_pos hlen] at ht
  obtain rfl := (next_iff _ _).1 ht
  exact inv_toIdle ⟨h.cfg, h.mem, h.below, h.reg, h.fields⟩

/-- The length test after an append restores the invariant: it waits below the declared length, and goes back to `Idle` at it and
beyond it. -/
theorem lengthTest_inv {s t : State} (h : Appended s) (ht : lengthTest s = .next t) : Inv t := by
  rcases lengthTest_cases s with ⟨h6, heq⟩ | ⟨-, -, heq⟩ | ⟨v, h6, hv, hcase⟩
  · obtain rfl := (next_iff _ _).1 (heq.symm.trans ht)
    exact h.inv (by omega) fun hlt => by omega
  · cases heq.symm.trans ht
  · rcases hcase with ⟨hlen, heq⟩ | ⟨hlen, heq⟩ | ⟨hlen, heq⟩
    · exact execRsmEmit_inv h.toCanonical h6 hv hlen (heq.symm.trans ht)
    · exact execRsmOverrun_inv h.toCanonical h6 hv hlen (heq.symm.trans ht)
    · obtain rfl := (next_iff _ _).1 (heq.symm.trans ht)
      have hmax := vlen_le hv
      exact h.inv (by omega) fun _ => ⟨v, hv, hlen⟩

/-- One chunk step keeps the invariant. -/
theorem execRsmStep_inv {s t : State} {c : Bytes} (h : Inv s) (hc : offeredChunk s = some c) (ht : execRsmStep s = .next t) :
    Inv t := by
  have hs := takeInput_inv h
  rcases execRsmStep_cases hc with ⟨-, heq⟩ | ⟨-, heq⟩ | ⟨-, hsync, heq⟩ | ⟨hacc, hne, heq⟩
  · obtain rfl := (next_iff _ _).1 (heq.symm.trans ht)
    exact hs
  · obtain rfl := (next_iff _ _).1 (heq.symm.trans ht)
    exact pulse_inv hs _
  · exact lengthTest_inv (storeChunk_start_appended hs.canonical hsync) (heq.symm.trans ht)
  · exact lengthTest_inv (storeChunk_append_appended hs hacc hne) (heq.symm.trans ht)

/-- Settles O50, by the next input: a chunk step by its length test, a port call and a host call by what they leave unchanged, a reset
by the state that it gives. -/
theorem everyStepKeepsTheInvariant : Obligations.EveryStepKeepsTheInvariant := by
  intro s t h ht
  have hs := takeInput_inv h
  rw [step_eq] at ht
  rcases hin : s.input with _ | ⟨x, rest⟩ <;> rw [hin] at ht
  case nil => exact (next_iff _ _).1 ht ▸ h
  case cons =>
    cases x with
    | chunk c => exact execRsmStep_inv (c := c) h (by simp [offeredChunk, hin]) ht
    | port i =>
      obtain ⟨r, rfl⟩ := portStep_next ht
      exact answerPort_inv hs r
    | teach req => exact hostEffect_inv hs ((next_iff _ _).1 ht ▸ teach_effect req _)
    | rename id name => exact hostEffect_inv hs ((next_iff _ _).1 ht ▸ rename_effect id name _)
    | get id => exact hostEffect_inv hs ((next_iff _ _).1 ht ▸ getDevice_effect id _)
    | getAll => exact hostEffect_inv hs ((next_iff _ _).1 ht ▸ getAll_effect _)
    | reset => exact (next_iff _ _).1 ht ▸ inv_reset s.cfg _ _ h.cfg

end Sys2Proof.Machine
end

section
/-! PROOFS. The encoding (spec/30_encoding.md): decoding and encoding are inverse to each other. -/

namespace Sys2Proof.Machine

/-! The fields of the ERP2 header byte, pattern `aaaetttt` (R89). -/

theorem headerByte_toNat (ac : BitVec 3) (eha : BitVec 1) (tt : BitVec 4) :
    (headerByte ac eha tt).toNat = ac.toNat * 32 + eha.toNat * 16 + tt.toNat := by
  unfold headerByte bfCat
  rw [BitVec.toNat_ofNat]
  omega

theorem headerAc_toNat (h : Byte) : (headerAc h).toNat = h.toNat / 32 := by
  unfold headerAc bfField
  rw [BitVec.toNat_ofNat, Nat.shiftRight_eq_div_pow]
  omega

theorem headerEha_toNat (h : Byte) : (headerEha h).toNat = h.toNat / 16 % 2 := by
  unfold headerEha bfBit
  rw [BitVec.toNat_ofNat, Nat.shiftRight_eq_div_pow]
  omega

theorem headerTt_toNat (h : Byte) : (headerTt h).toNat = h.toNat % 16 := by
  unfold headerTt bfField
  rw [BitVec.toNat_ofNat, Nat.shiftRight_eq_div_pow]
  omega

@[simp] theorem headerAc_headerByte (ac : BitVec 3) (eha : BitVec 1) (tt : BitVec 4) : headerAc (headerByte ac eha tt) = ac := by
  apply BitVec.eq_of_toNat_eq
  rw [headerAc_toNat, headerByte_toNat]
  omega

@[simp] theorem headerEha_headerByte (ac : BitVec 3) (eha : BitVec 1) (tt : BitVec 4) : headerEha (headerByte ac eha tt) = eha := by
  apply BitVec.eq_of_toNat_eq
  rw [headerEha_toNat, headerByte_toNat]
  omega

@[simp] theorem headerTt_headerByte (ac : BitVec 3) (eha : BitVec 1) (tt : BitVec 4) : headerTt (headerByte ac eha tt) = tt := by
  apply BitVec.eq_of_toNat_eq
  rw [headerTt_toNat, headerByte_toNat]
  omega

/-- A header byte is put together from its own fields. -/
theorem headerByte_fields (h : Byte) : headerByte (headerAc h) (headerEha h) (headerTt h) = h := by
  apply BitVec.eq_of_toNat_eq
  rw [headerByte_toNat, headerAc_toNat, headerEha_toNat, headerTt_toNat]
  omega

theorem exists_headerByte (h : Byte) : ∃ ac eha tt, h = headerByte ac eha tt := ⟨_, _, _, (headerByte_fields h).symm⟩

/-! The decoder, the `ERP2_AC` row and well-formed operands. -/

/-- The decoder reads a key and selects its row. -/
theorem decode_eq_ok_iff (f : Format) (bytes : Bytes) (i : Instr) :
    decode f bytes = .ok i ↔ ∃ k, wireKey f bytes = .ok k ∧ decodeKey k = some i := by
  unfold decode
  cases wireKey f bytes with
  | error r => simp
  | ok k =>
    dsimp only
    cases hi : decodeKey k <;> simp [hi]

/-- The Address Control values `1xx` of `ERP2.ACRSV` are 4 to 7 (R92). -/
theorem reservedAc_toNat (r : BitVec 2) : (BitVec.ofNat 3 (bfCat 1 r.toNat 2)).toNat = 4 + r.toNat := by
  rw [BitVec.toNat_ofNat, bfCat]
  omega

/-- The row of the four Address Control values `1xx` (R92). -/
theorem decodeErp2Ac_reserved (r : BitVec 2) (eha : BitVec 1) (tt : BitVec 4) :
    decodeErp2Ac (headerByte (BitVec.ofNat 3 (bfCat 1 r.toNat 2)) eha tt) = .erp2Acrsv r eha tt := by
  have hac : (BitVec.ofNat 3 (bfCat 1 r.toNat 2)).toNat = r.toNat + 4 := (reservedAc_toNat r).trans (Nat.add_comm _ _)
  have hrsv : BitVec.ofNat 2 (bfField (headerByte (BitVec.ofNat 3 (bfCat 1 r.toNat 2)) eha tt) 6 5) = r := by
    apply BitVec.eq_of_toNat_eq
    rw [bfField, headerByte_toNat, hac, Nat.shiftRight_eq_div_pow, BitVec.toNat_ofNat]
    omega
  simp only [decodeErp2Ac, headerAc_headerByte, headerEha_headerByte, headerTt_headerByte, hac, hrsv]

/-- The Address Control values, row by row: 0 to 3, and `1xx`. -/
theorem addressControl_cases : ∀ ac : BitVec 3,
    ac = 0 ∨ ac = 1 ∨ ac = 2 ∨ ac = 3 ∨ ∃ r : BitVec 2, ac = BitVec.ofNat 3 (bfCat 1 r.toNat 2) := by
  decide

theorem wf_rsmDrop_iff (b : Byte) : (Instr.rsmDrop b).wf = true ↔ b ≠ syncMarker := decide_eq_true_iff

theorem wf_esp3Other_iff (p : Byte) : (Instr.esp3Other p).wf = true ↔ p ≠ ptypeErp1 ∧ p ≠ ptypeErp2 := by
  simp [Instr.wf]

theorem wf_erp1Tinone_iff (rorg : Byte) :
    (Instr.erp1Tinone rorg).wf = true ↔ rorg ≠ rorg4bs ∧ rorg ≠ rorgUte ∧ rorg ≠ rorg1bs := by
  simp [Instr.wf, and_assoc]

theorem wf_eepUnknown_iff (code : Option Eep) :
    (Instr.eepUnknown code).wf = true ↔ code ≠ some codeD50001 ∧ code ≠ some codeA50205 := by
  simp [Instr.wf]

/-! The bytes of a profile code (R94). -/

theorem eepOf_bytes_toNat (r f t : Byte) : (eepOf r.toNat f.toNat t.toNat).toNat = r.toNat * 65536 + f.toNat * 256 + t.toNat := by
  rw [eepOf, bfCat, bfCat, BitVec.toNat_ofNat]
  omega

theorem eepBytes_eepOf (r f t : Byte) : eepBytes (eepOf r.toNat f.toNat t.toNat) = [r, f, t] := by
  have hr : eepRorg (eepOf r.toNat f.toNat t.toNat) = r := by
    apply BitVec.eq_of_toNat_eq
    rw [eepRorg, eepOf_bytes_toNat, Nat.shiftRight_eq_div_pow, BitVec.toNat_ofNat]
    omega
  have hf : eepFunc (eepOf r.toNat f.toNat t.toNat) = f := by
    apply BitVec.eq_of_toNat_eq
    rw [eepFunc, eepOf_bytes_toNat, Nat.shiftRight_eq_div_pow, BitVec.toNat_ofNat]
    omega
  have ht : eepType (eepOf r.toNat f.toNat t.toNat) = t := by
    apply BitVec.eq_of_toNat_eq
    rw [eepType, eepOf_bytes_toNat, BitVec.toNat_ofNat]
    omega
  rw [eepBytes, hr, hf, ht]

theorem eepOf_fields (e : Eep) : eepOf (eepRorg e).toNat (eepFunc e).toNat (eepType e).toNat = e := by
  apply BitVec.eq_of_toNat_eq
  rw [eepOf_bytes_toNat]
  simp only [eepRorg, eepFunc, eepType, BitVec.toNat_ofNat, Nat.shiftRight_eq_div_pow]
  omega

/-! What each row selects is an operation of its format, well formed, and encoded by the row's key. -/

/-- The operation that a key selects agrees with the encoder: it is of the key's format, well formed, and its encoding is the key. -/
def SelectedBy (f : Format) (key : Bytes) (i : Instr) : Prop := i.format = f ∧ i.wf = true ∧ encode i = some key

theorem decodeChunk_selected (first : Option Byte) : SelectedBy .chunk first.toList (decodeChunk .idle first) := by
  cases first with
  | none => exact ⟨rfl, rfl, rfl⟩
  | some b =>
    by_cases hb : b = syncMarker
    · subst hb
      exact ⟨rfl, rfl, rfl⟩
    · rw [decodeChunk, if_neg hb]
      exact ⟨rfl, (wf_rsmDrop_iff b).2 hb, rfl⟩

theorem decodeEsp3_selected (p : Byte) : SelectedBy .esp3 [p] (decodeEsp3 p) := by
  by_cases h1 : p = ptypeErp1
  · subst h1
    exact ⟨rfl, rfl, rfl⟩
  · by_cases h2 : p = ptypeErp2
    · subst h2
      exact ⟨rfl, rfl, rfl⟩
    · rw [decodeEsp3, if_neg h1, if_neg h2]
      exact ⟨rfl, (wf_esp3Other_iff p).2 ⟨h1, h2⟩, rfl⟩

theorem decodeErp1_selected (rorg : Byte) : SelectedBy .erp1 [rorg] (decodeErp1 rorg) := by
  by_cases h4 : rorg = rorg4bs
  · subst h4
    exact ⟨rfl, rfl, rfl⟩
  · by_cases hu : rorg = rorgUte
    · subst hu
      exact ⟨rfl, rfl, rfl⟩
    · by_cases h1 : rorg = rorg1bs
      · subst h1
        exact ⟨rfl, rfl, rfl⟩
      · rw [decodeErp1, if_neg h4, if_neg hu, if_neg h1]
        exact ⟨rfl, (wf_erp1Tinone_iff rorg).2 ⟨h4, hu, h1⟩, rfl⟩

theorem decodeErp2Ac_selected (h : Byte) : SelectedBy .erp2Ac [h] (decodeErp2Ac h) := by
  obtain ⟨ac, eha, tt, rfl⟩ := exists_headerByte h
  rcases addressControl_cases ac with rfl | rfl | rfl | rfl | ⟨r, rfl⟩
  case inr.inr.inr.inr =>
    rw [decodeErp2Ac_reserved]
    exact ⟨rfl, rfl, rfl⟩
  all_goals
    simp only [decodeErp2Ac, headerAc_headerByte, headerEha_headerByte, headerTt_headerByte]
    exact ⟨rfl, rfl, rfl⟩

theorem decodeErp2Eha_selected {h : Byte} {i : Instr} (hi : decodeErp2Eha h = some i) : SelectedBy .erp2Eha [h] i := by
  obtain ⟨ac, eha, tt, rfl⟩ := exists_headerByte h
  simp only [decodeErp2Eha, headerAc_headerByte, headerEha_headerByte, headerTt_headerByte] at hi
  split at hi
  case isTrue heha =>
    obtain rfl := Option.some.inj hi
    subst heha
    exact ⟨rfl, rfl, rfl⟩
  case isFalse => cases hi

theorem decodeErp2Tt_selected (h : Byte) : SelectedBy .erp2Tt [h] (decodeErp2Tt h) := by
  obtain ⟨ac, eha, tt, rfl⟩ := exists_headerByte h
  simp only [decodeErp2Tt, headerAc_headerByte, headerEha_headerByte, headerTt_headerByte]
  obtain ⟨⟨n, hn⟩⟩ := tt
  interval_cases n <;> exact ⟨rfl, rfl, rfl⟩

theorem decodeEep_selected (code : Option Eep) :
    SelectedBy .eep (code.elim [] eepBytes) (decodeEep code) := by
  by_cases hd : code = some codeD50001
  · subst hd
    exact ⟨rfl, rfl, rfl⟩
  · by_cases ha : code = some codeA50205
    · subst ha
      exact ⟨rfl, rfl, rfl⟩
    · rw [decodeEep, if_neg hd, if_neg ha]
      exact ⟨rfl, (wf_eepUnknown_iff code).2 ⟨hd, ha⟩, by cases code <;> rfl⟩

/-- Every key on the wire selects an operation that its bytes encode; of a chunk the first byte is the key (R84). -/
theorem wireKey_selected {f : Format} {bytes : Bytes} {k : Key} {i : Instr} (hk : wireKey f bytes = .ok k)
    (hi : decodeKey k = some i) : SelectedBy f (if f = .chunk then bytes.take 1 else bytes) i := by
  unfold wireKey at hk
  split at hk <;> cases hk
  case h_1 => exact Option.some.inj hi ▸ decodeChunk_selected none
  case h_2 b _ => exact Option.some.inj hi ▸ decodeChunk_selected (some b)
  case h_3 b => exact Option.some.inj hi ▸ decodeEsp3_selected b
  case h_4 b => exact Option.some.inj hi ▸ decodeErp1_selected b
  case h_5 b => exact Option.some.inj hi ▸ decodeErp2Ac_selected b
  case h_6 b => exact decodeErp2Eha_selected hi
  case h_7 b => exact Option.some.inj hi ▸ decodeErp2Tt_selected b
  case h_8 => exact Option.some.inj hi ▸ decodeEep_selected none
  case h_9 r f t =>
    rw [if_neg (by decide), ← eepBytes_eepOf r f t]
    exact Option.some.inj hi ▸ decodeEep_selected (some _)

/-- Settles O59: the decoder reads a key of the format, and each row of it agrees with the encoder. -/
theorem encodeOfDecode : Obligations.EncodeOfDecode := by
  intro f bytes i hdec
  obtain ⟨k, hk, hi⟩ := (decode_eq_ok_iff f bytes i).1 hdec
  exact wireKey_selected hk hi

/-! What the encoder gives is a key, and the key selects the operation. -/

/-- The row that an encoding selects is the operation's own, since a well-formed operand of a default row matches no other. -/
theorem decode_encode {i : Instr} {bytes : Bytes} (hwf : i.wf = true) (h : encode i = some bytes) :
    decode i.format bytes = .ok i := by
  refine (decode_eq_ok_iff _ _ _).2 ?_
  cases i
  case rsmNop | rsmStart | esp3Erp1 | esp3Erp2 | erp1Ti4bs | erp1Tiute | erp1Ti1bs | eepD50001 | eepA50205 =>
    cases h
    exact ⟨_, rfl, by decide⟩
  case rsmDrop first =>
    cases h
    have hb := (wf_rsmDrop_iff first).1 hwf
    exact ⟨_, rfl, by simp [decodeKey, decodeChunk, hb]⟩
  case esp3Other p =>
    cases h
    obtain ⟨h1, h2⟩ := (wf_esp3Other_iff p).1 hwf
    exact ⟨_, rfl, by simp [decodeKey, decodeEsp3, h1, h2]⟩
  case erp1Tinone rorg =>
    cases h
    obtain ⟨h4, hu, h1⟩ := (wf_erp1Tinone_iff rorg).1 hwf
    exact ⟨_, rfl, by simp [decodeKey, decodeErp1, h4, hu, h1]⟩
  case erp2Acrsv r eha tt =>
    cases h
    exact ⟨_, rfl, congrArg some (decodeErp2Ac_reserved r eha tt)⟩
  case erp2Ac0 | erp2Ac1 | erp2Ac2 | erp2Ac3 =>
    cases h
    exact ⟨_, rfl, by simp [decodeKey, decodeErp2Ac]⟩
  case erp2Eha ac tt =>
    cases h
    exact ⟨_, rfl, by simp [decodeKey, decodeErp2Eha]⟩
  case erp2Tt0 | erp2Tt1 | erp2Tt2 | erp2Tt3 | erp2Tt4 | erp2Tt5 | erp2Tt6 | erp2Tt7 | erp2Tt8 | erp2Tt9 | erp2Tt10 |
      erp2Ttrsv11 | erp2Ttrsv12 | erp2Ttrsv13 | erp2Ttrsv14 | erp2Ttext =>
    cases h
    exact ⟨_, rfl, by simp [decodeKey, decodeErp2Tt]⟩
  case eepUnknown code =>
    obtain ⟨hd, ha⟩ := (wf_eepUnknown_iff code).1 hwf
    have hrow : decodeEep code = .eepUnknown code := by rw [decodeEep, if_neg hd, if_neg ha]
    cases code with
    | none =>
      cases h
      exact ⟨_, rfl, congrArg some hrow⟩
    | some e =>
      cases h
      refine ⟨_, rfl, ?_⟩
      rw [eepOf_fields]
      exact congrArg some hrow
  all_goals cases h

/-- The operations without an encoding: `RSM.APPEND` and those that no wire bits select (R80, R84). -/
theorem encode_eq_none {i : Instr} (h : encode i = none) :
    i = .rsmAppend ∨ i.format ∈ [Format.func, .chunkLen, .erp1Len, .erp2Len] := by
  cases i
  case rsmAppend => exact .inl rfl
  case crc8Compute | crc8Verify | bfBit | bfField | bfCat | bfU16 | bfSlice | bfIdnorm | rsmStep | rsmWait | rsmEmit |
      rsmOverrun | esp3Decode | esp3Hdr | esp3Crc8h | esp3Opt | esp3Crc8d | esp3Merge | erp2Decode | erp2Subcrc |
      erp2Hdrbyte | erp2Short | erp1Decode | erp1Short | erp1Fields | eepDecode | eepIsknown =>
    exact .inr (List.mem_of_elem_eq_true rfl)
  case eepUnknown code => cases code <;> cases h
  all_goals cases h

/-- Settles O58, by the operation: `decode_encode` where there is an encoding, `encode_eq_none` where there is none. -/
theorem decodeOfEncode : Obligations.DecodeOfEncode :=
  fun _ hwf => ⟨fun _ h => decode_encode hwf h, encode_eq_none⟩

/-- Settles O60: each key is decoded by evaluation. -/
theorem sampleWordsDecode : Obligations.SampleWordsDecode := by
  unfold Obligations.SampleWordsDecode
  decide

end Sys2Proof.Machine
end

section
/-! PROOFS. The texts of profile codes and device ids (spec/30_encoding.md R94, R105 to R107, spec/60_exceptions.md R280). -/

namespace Sys2Proof.Machine

/-! Hex digits. -/

/-- The 22 hex digits, by character number: `0` to `9`, `A` to `F`, `a` to `f`. -/
theorem hexVal_eq_some_iff (c : Char) (v : Nat) :
    hexVal c = some v ↔ (c.toNat = 48 + v ∧ v < 10) ∨ (c.toNat = 55 + v ∧ 10 ≤ v ∧ v < 16) ∨
      (c.toNat = 87 + v ∧ 10 ≤ v ∧ v < 16) := by
  unfold hexVal
  dsimp only
  split
  · rw [Option.some.injEq]; omega
  · split
    · rw [Option.some.injEq]; omega
    · split
      · rw [Option.some.injEq]; omega
      · simp only [reduceCtorEq, false_iff]; omega

theorem hexVal_lt {c : Char} {v : Nat} (h : hexVal c = some v) : v < 16 := by
  have := (hexVal_eq_some_iff c v).1 h
  omega

/-- The digit that is written for a value reads back as that value. -/
theorem hexVal_hexDigit_mod (n : Nat) : hexVal (hexDigit (n % 16)) = some (n % 16) := by
  have hdigit : ∀ d < 16, hexVal (hexDigit d) = some d := by decide
  exact hdigit _ (Nat.mod_lt n (by decide))

theorem toNat_toUpper (c : Char) :
    c.toUpper.toNat = if 97 ≤ c.toNat ∧ c.toNat ≤ 122 then c.toNat - 32 else c.toNat := by
  have hrange : ('a'.val ≤ c.val ∧ c.val ≤ 'z'.val) ↔ 97 ≤ c.toNat ∧ c.toNat ≤ 122 := by
    simp only [UInt32.le_iff_toNat_le]
    rfl
  unfold Char.toUpper
  split
  case isTrue h =>
    obtain ⟨hlow, hhigh⟩ := hrange.1 h
    have hoffset : ('A'.val - 'a'.val).toNat = 2 ^ 32 - 32 := by decide
    have hsum : (c.val + ('A'.val - 'a'.val)).toNat = (c.toNat + (2 ^ 32 - 32)) % 2 ^ 32 := by
      rw [UInt32.toNat_add, hoffset]
      rfl
    rw [if_pos ⟨hlow, hhigh⟩]
    exact hsum.trans (by omega)
  case isFalse h => rw [if_neg fun hn => h (hrange.2 hn)]

theorem hexVal_toUpper (c : Char) : hexVal c.toUpper = hexVal c := by
  apply Option.ext
  intro v
  rw [hexVal_eq_some_iff, hexVal_eq_some_iff, toNat_toUpper]
  split <;> omega

theorem toUpper_eq_hyphen_iff (c : Char) : c.toUpper = '-' ↔ c = '-' := by
  rw [← Char.toNat_inj, ← Char.toNat_inj, toNat_toUpper, show '-'.toNat = 45 from rfl]
  split <;> omega

theorem isSpace_toUpper (c : Char) : isSpace c.toUpper = isSpace c := by
  unfold isSpace
  rw [toNat_toUpper]
  split
  · simp only [← Bool.decide_and, ← Bool.decide_or, decide_eq_decide]; omega
  · rfl

/-- Horner's scheme gives the number that the digits write, first digit most significant. -/
theorem digitsValue_eq_ofDigits (ds : List Nat) : digitsValue ds = Nat.ofDigits 16 ds.reverse := by
  rw [digitsValue, Nat.ofDigits_eq_foldr, List.foldr_reverse]
  simp only [Nat.cast_id, Nat.add_comm, Nat.mul_comm]

theorem digitsValue_hexVals_lt (t : Text) : digitsValue (t.filterMap hexVal) < 16 ^ t.length := by
  rw [digitsValue_eq_ofDigits]
  have hlt : ∀ v ∈ (t.filterMap hexVal).reverse, v < 16 := by
    intro v hv
    obtain ⟨c, -, hc⟩ := List.mem_filterMap.1 (List.mem_reverse.1 hv)
    exact hexVal_lt hc
  calc Nat.ofDigits 16 (t.filterMap hexVal).reverse
      < 16 ^ (t.filterMap hexVal).reverse.length := Nat.ofDigits_lt_base_pow_length (by decide) hlt
    _ ≤ 16 ^ t.length := Nat.pow_le_pow_right (by decide) (by rw [List.length_reverse]; exact List.length_filterMap_le _ _)

/-! Profile codes. -/

theorem normEep_of_length {t : Text} (h : (t.filterMap hexVal).length = 6) :
    normEep t = some (BitVec.ofNat 24 (Nat.ofDigits 16 (t.filterMap hexVal).reverse)) := by
  rw [← digitsValue_eq_ofDigits]
  exact if_pos h

theorem normEep_of_length_ne {t : Text} (h : (t.filterMap hexVal).length ≠ 6) : normEep t = none := if_neg h

theorem hexVals_canonicalEep (c : Eep) :
    (canonicalEep c).filterMap hexVal =
      [(c.toNat >>> 20) % 16, (c.toNat >>> 16) % 16, (c.toNat >>> 12) % 16, (c.toNat >>> 8) % 16, (c.toNat >>> 4) % 16,
       (c.toNat >>> 0) % 16] := by
  have hhyphen : hexVal '-' = none := rfl
  simp only [canonicalEep, List.filterMap, hexVal_hexDigit_mod, hhyphen]

theorem normEep_canonicalEep (c : Eep) : normEep (canonicalEep c) = some c := by
  rw [normEep_of_length (by rw [hexVals_canonicalEep]; rfl), hexVals_canonicalEep]
  congr 1
  apply BitVec.eq_of_toNat_eq
  simp only [← digitsValue_eq_ofDigits, digitsValue, List.foldl, BitVec.toNat_ofNat, Nat.shiftRight_eq_div_pow]
  omega

theorem eepTextOk_canonicalEep (c : Eep) : eepTextOk (canonicalEep c) = true := by
  simp [eepTextOk, canonicalEep, hexVal_hexDigit_mod]

theorem canonicalEep_inj {c d : Eep} : canonicalEep c = canonicalEep d ↔ c = d := by
  refine ⟨fun h => ?_, fun h => h ▸ rfl⟩
  have hnorm := congrArg normEep h
  rwa [normEep_canonicalEep, normEep_canonicalEep, Option.some.injEq] at hnorm

theorem isKnownText_canonicalEep (table : List ProfileRow) (c : Eep) :
    isKnownText table (canonicalEep c) = isKnown table (some c) := by
  simp only [isKnownText, isKnown, canonicalEep_inj]

/-- With hyphens at their places the teach interface reads the other six characters as `NormEEP` does. -/
theorem teachEep_eight (a b h c d k x y : Char) :
    teachEep [a, b, h, c, d, k, x, y] = if h = '-' ∧ k = '-' then normEep [a, b, c, d, x, y] else none := rfl

theorem teachEep_eq_some_iff (t : Text) (e : Eep) :
    teachEep t = some e ↔ ∃ a b c d x y, t = [a, b, '-', c, d, '-', x, y] ∧ normEep [a, b, c, d, x, y] = some e := by
  constructor
  · intro h
    unfold teachEep at h
    split at h
    · rename_i a b h1 c d h2 x y
      split at h
      case isTrue hh =>
        obtain ⟨rfl, rfl⟩ := hh
        exact ⟨a, b, c, d, x, y, rfl, h⟩
      case isFalse => cases h
    · cases h
  · rintro ⟨a, b, c, d, x, y, rfl, h⟩
    exact h

/-- Six characters name a code exactly when each is a hex digit. -/
theorem normEep_six_iff (a b c d x y : Char) (e : Eep) :
    normEep [a, b, c, d, x, y] = some e ↔
      ∃ va vb vc vd vx vy, hexVal a = some va ∧ hexVal b = some vb ∧ hexVal c = some vc ∧ hexVal d = some vd ∧
        hexVal x = some vx ∧ hexVal y = some vy ∧ e = BitVec.ofNat 24 (Nat.ofDigits 16 [vy, vx, vd, vc, vb, va]) := by
  constructor
  · intro h
    have hlen : ([a, b, c, d, x, y].filterMap hexVal).length = [a, b, c, d, x, y].length := by
      by_contra hne
      rw [normEep_of_length_ne hne] at h
      cases h
    have hall := List.filterMap_length_eq_length.1 hlen
    simp only [List.forall_mem_cons, Option.isSome_iff_exists] at hall
    obtain ⟨⟨va, ha⟩, ⟨vb, hb⟩, ⟨vc, hc⟩, ⟨vd, hd⟩, ⟨vx, hx⟩, ⟨vy, hy⟩, -⟩ := hall
    refine ⟨va, vb, vc, vd, vx, vy, ha, hb, hc, hd, hx, hy, ?_⟩
    rw [normEep_of_length hlen] at h
    simpa [List.filterMap, ha, hb, hc, hd, hx, hy] using h.symm
  · rintro ⟨va, vb, vc, vd, vx, vy, ha, hb, hc, hd, hx, hy, rfl⟩
    have hvals : [a, b, c, d, x, y].filterMap hexVal = [va, vb, vc, vd, vx, vy] := by
      simp only [List.filterMap, ha, hb, hc, hd, hx, hy]
    rw [normEep_of_length (by rw [hvals]; rfl), hvals]
    rfl

theorem teachEep_canonicalEep (c : Eep) : teachEep (canonicalEep c) = some c := by
  have hskip : normEep (canonicalEep c) = teachEep (canonicalEep c) := rfl
  rw [← hskip, normEep_canonicalEep]

theorem exec_eepDecode_text {t : Text} (h : eepTextOk t = true) (payload : Bytes) (s : State) :
    exec (.eepDecode (.text t) payload) s = exec (.eepDecode (.code (normEep t)) payload) s := if_pos h

/-- Settles O41: on its domain the text is replaced by its code, and the digits of a canonical text are those of its code. -/
theorem eepDecodeNormalisesText : Obligations.EepDecodeNormalisesText := by
  intro s t payload
  refine ⟨fun h => ?_, fun h hlen => ?_, fun h hlen => ?_, fun c => ⟨?_, ?_, teachEep_canonicalEep c⟩⟩
  · exact if_neg (by rw [h]; decide)
  · rw [exec_eepDecode_text h, normEep_of_length_ne hlen]
  · rw [exec_eepDecode_text h, normEep_of_length hlen]
  · rw [exec_eepDecode_text (eepTextOk_canonicalEep c), normEep_canonicalEep]
  · simp only [exec, execEepIsknown, isKnownText_canonicalEep]

/-! Upper-casing a text. -/

theorem hexVals_map_toUpper (t : Text) : (t.map Char.toUpper).filterMap hexVal = t.filterMap hexVal := by
  rw [List.filterMap_map]
  exact congrArg (List.filterMap · t) (funext hexVal_toUpper)

theorem normEep_map_toUpper (t : Text) : normEep (t.map Char.toUpper) = normEep t := by
  simp only [normEep, hexVals_map_toUpper]

theorem teachEep_map_toUpper (t : Text) : teachEep (t.map Char.toUpper) = teachEep t := by
  match t with
  | [a, b, h, c, d, k, x, y] =>
    have hdigits : normEep [a.toUpper, b.toUpper, c.toUpper, d.toUpper, x.toUpper, y.toUpper] = normEep [a, b, c, d, x, y] :=
      normEep_map_toUpper [a, b, c, d, x, y]
    simp only [List.map, teachEep_eight, toUpper_eq_hyphen_iff, hdigits]
  | [] | [_] | [_, _] | [_, _, _] | [_, _, _, _] | [_, _, _, _, _] | [_, _, _, _, _, _] | [_, _, _, _, _, _, _] => rfl
  | _ :: _ :: _ :: _ :: _ :: _ :: _ :: _ :: _ :: _ => rfl

/-- The characters of an id text that count: neither white space nor a hyphen (R106). -/
def idDigits (t : Text) : Text := t.filter (fun c => !(isSpace c) && decide (c ≠ '-'))

theorem normId_eq (t : Text) :
    normId t =
      if (∀ c ∈ idDigits t, hexVal c ≠ none) ∧ ((idDigits t).length = 6 ∨ (idDigits t).length = 8 ∨ (idDigits t).length = 12) then
        some (BitVec.ofNat 48 (digitsValue ((idDigits t).filterMap hexVal)))
      else none := by
  have hall : ((idDigits t).all (fun c => (hexVal c).isSome) = true) ↔ ∀ c ∈ idDigits t, hexVal c ≠ none := by
    simp only [List.all_eq_true, Option.isSome_iff_ne_none]
  rw [ite_and]
  simp only [← hall]
  rfl

theorem idDigits_map_toUpper (t : Text) : idDigits (t.map Char.toUpper) = (idDigits t).map Char.toUpper := by
  unfold idDigits
  rw [List.filter_map]
  congr 2
  funext c
  simp only [Function.comp_apply, isSpace_toUpper, ne_eq, toUpper_eq_hyphen_iff]

theorem normId_map_toUpper (t : Text) : normId (t.map Char.toUpper) = normId t := by
  simp only [normId_eq, idDigits_map_toUpper, List.length_map, hexVals_map_toUpper, List.forall_mem_map, hexVal_toUpper]

theorem normId_toNat {t : Text} (hhex : ∀ c ∈ idDigits t, hexVal c ≠ none)
    (hlen : (idDigits t).length = 6 ∨ (idDigits t).length = 8 ∨ (idDigits t).length = 12) :
    ∃ i, normId t = some i ∧ i.toNat = Nat.ofDigits 16 ((idDigits t).filterMap hexVal).reverse := by
  refine ⟨_, by rw [normId_eq, if_pos ⟨hhex, hlen⟩], ?_⟩
  have hlt := digitsValue_hexVals_lt (idDigits t)
  have hpow : 16 ^ (idDigits t).length ≤ 16 ^ 12 := Nat.pow_le_pow_right (by decide) (by omega)
  rw [BitVec.toNat_ofNat, digitsValue_eq_ofDigits] at *
  exact Nat.mod_eq_of_lt (by omega)

/-- The hex digits listed. -/
theorem hexVal_eq_some_iff_mem (c : Char) (v : Nat) :
    hexVal c = some v ↔ (c, v) ∈ "0123456789ABCDEF".toList.zip (List.range 16) ∨
      (c, v) ∈ "abcdef".toList.zip [10, 11, 12, 13, 14, 15] := by
  constructor
  · intro h
    have hdigit : ∀ n < 10, (Char.ofNat (48 + n), n) ∈ "0123456789ABCDEF".toList.zip (List.range 16) := by decide
    have hupper : ∀ n < 16, 10 ≤ n → (Char.ofNat (55 + n), n) ∈ "0123456789ABCDEF".toList.zip (List.range 16) := by decide
    have hlower : ∀ n < 16, 10 ≤ n → (Char.ofNat (87 + n), n) ∈ "abcdef".toList.zip [10, 11, 12, 13, 14, 15] := by decide
    rw [← Char.ofNat_toNat c]
    rcases (hexVal_eq_some_iff c v).1 h with ⟨hc, hv⟩ | ⟨hc, hv, hv'⟩ | ⟨hc, hv, hv'⟩ <;> rw [hc]
    · exact .inl (hdigit v hv)
    · exact .inl (hupper v hv' hv)
    · exact .inr (hlower v hv' hv)
  · have hlist : ∀ p ∈ "0123456789ABCDEF".toList.zip (List.range 16) ++ "abcdef".toList.zip [10, 11, 12, 13, 14, 15],
        hexVal p.1 = some p.2 := by decide
    exact fun h => hlist (c, v) (List.mem_append.2 h)

/-- Settles O48: `NormID` and the teach interface read the hex digits that are left, and upper-casing keeps a digit's value. -/
theorem textsOfIdsAndProfilesAtTheHost : Obligations.TextsOfIdsAndProfilesAtTheHost := by
  refine ⟨?_, fun t e => ?_, fun t => ⟨teachEep_map_toUpper t, normId_map_toUpper t⟩, hexVal_eq_some_iff_mem, ?_⟩
  · rintro t _ rfl
    refine ⟨?_, fun h6 h8 h12 => ?_, normId_toNat⟩
    · rintro ⟨c, hc, hnone⟩
      rw [normId_eq, if_neg fun h => h.1 c hc hnone]
    · rw [normId_eq, if_neg fun h => h.2.elim h6 (·.elim h8 h12)]
  · rw [teachEep_eq_some_iff]
    constructor
    · rintro ⟨a, b, c, d, x, y, rfl, h⟩
      obtain ⟨va, vb, vc, vd, vx, vy, h⟩ := (normEep_six_iff a b c d x y e).1 h
      exact ⟨a, b, c, d, x, y, va, vb, vc, vd, vx, vy, rfl, h⟩
    · rintro ⟨a, b, c, d, x, y, va, vb, vc, vd, vx, vy, rfl, h⟩
      exact ⟨a, b, c, d, x, y, rfl, (normEep_six_iff a b c d x y e).2 ⟨va, vb, vc, vd, vx, vy, h⟩⟩
  · decide

end Sys2Proof.Machine
end

section
/-! PROOFS. The Teach-In of a 4BS telegram in a whole frame decode (spec/30_encoding.md R96). -/

namespace Sys2Proof.Machine

/-! The radio decoders, written out. -/

/-- The Teach-In decoder that a RORG byte selects in ERP1 (45_erp1.md R207). -/
def erp1TeachIn (cfg : Config) (rorg : Byte) (payload : Bytes) : Option TeachIn :=
  if rorg = rorg4bs then teachIn4bs cfg.teachin4bs payload
  else if rorg = rorgUte then teachInUte cfg.teachinUte payload
  else none

/-- The Teach-In operation of a RORG byte runs the decoder of that byte over Data_DL. -/
theorem erp1TeachRow_eq (rorg : Byte) (s : State) :
    erp1TeachRow rorg s =
      .next (s.setFields (setTeachIn (if s.fields.dl = none then none else erp1TeachIn s.cfg rorg (dlBytes s.fields)) s.fields)) := by
  unfold erp1TeachRow erp1TeachIn
  split
  · exact erp1Teach_eq _ s
  · split
    · exact erp1Teach_eq _ s
    · split <;> exact erp1Teach_eq _ s

/-- The end of a radio decode whose Teach-In operation writes the registers only. -/
theorem radioTail_setFields {teach : State → Answer} {s : State} {g : State → Telegram}
    (h : ∀ s, teach s = .next (s.setFields (g s))) :
    radioTail teach s =
      .next ((askRegistry s (s.fields.oid.getD 0)).setFields
        (finishRadio s.cfg (s.fields.oid.getD 0) (regLookup s.reg (s.fields.oid.getD 0))
          (g (askRegistry s (s.fields.oid.getD 0))))) := by
  simp only [radioTail, h, andThen_next, setFields_cfg, setFields_reg, setFields_fields, setFields_setFields, askRegistry_cfg,
    askRegistry_reg]

theorem execErp1Fields_long {s : State} (h : 7 ≤ (dataBytes s.fields).length) :
    execErp1Fields s = .next (s.setFields (erp1Slices (dataBytes s.fields) s.fields)) := if_pos h

/-- `ERP1.DECODE` on a region that is long enough: the slices, the Teach-In of the RORG byte, one look-up, the end of the decode. -/
theorem execErp1Decode_long {s : State} (h : 7 ≤ (dataBytes s.fields).length) :
    ∃ (f g : Telegram) (id : Id48),
      f = erp1Slices (dataBytes s.fields) { s.fields with crcsubOk := none } ∧
      g = setTeachIn (erp1TeachIn s.cfg (byteAt (dataBytes s.fields) 0) (dlBytes f)) f ∧
      id = f.oid.getD 0 ∧
      execErp1Decode s = .next ((askRegistry s id).setFields (finishRadio s.cfg id (regLookup s.reg id) g)) := by
  refine ⟨_, _, _, rfl, rfl, rfl, ?_⟩
  unfold execErp1Decode
  have h0 : 7 ≤ (dataBytes (s.setFields { s.fields with crcsubOk := none }).fields).length := h
  dsimp only
  rw [if_neg (not_lt.2 h0), execErp1Fields_long h0, andThen_next, radioTail_setFields (erp1TeachRow_eq _)]
  rfl

/-- `ERP1.DECODE` on any other region: the opaque result. -/
theorem execErp1Decode_short {s : State} (h : ¬ 7 ≤ (dataBytes s.fields).length) :
    execErp1Decode s = .next (s.setFields (opaqueResult .erp1Short { s.fields with crcsubOk := none })) := by
  have h0 : (dataBytes (s.setFields { s.fields with crcsubOk := none }).fields).length < 7 := not_le.1 h
  unfold execErp1Decode
  dsimp only
  rw [if_pos h0, execErp1Short_eq, if_pos h0]
  rfl

/-- `ERP2.DECODE` from its header byte on: a guard that turns the region away leaves Data_DL as it was; else the ids and Data_DL are
sliced, then the Teach-In of the Telegram Type, one look-up, the end of the decode. -/
theorem erp2Body_cases (h : Byte) (s : State) :
    (∃ f, erp2Body h s = .next (s.setFields f) ∧ f.dl = s.fields.dl) ∨
    ∃ (row : AcRow) (f g : Telegram) (id : Id48),
      f = erp2Dl (dataBytes s.fields).length row (erp2Ids (dataBytes s.fields) row s.fields) ∧
      g = setTeachIn (erp2TeachIn s.cfg (headerTt h) (dlBytes f)) (erp2Rorg s.cfg (headerTt h) f) ∧
      id = f.oid.getD 0 ∧
      erp2Body h s = .next ((askRegistry s id).setFields (finishRadio s.cfg id (regLookup s.reg id) g)) := by
  unfold erp2Body
  cases hrow : acLookup s.cfg (headerAc h) with
  | none =>
    refine .inl ⟨_, erp2AcRow_eq _ _, ?_⟩
    rw [hrow]
    rfl
  | some row =>
    dsimp only
    split
    · exact .inl ⟨_, rfl, rfl⟩
    · split
      · refine .inl ⟨_, execErp2Short_eq s, ?_⟩
        split
        · rfl
        · split <;> rfl
      · rename_i hlong
        have hids : erp2AcRow (headerAc h) s = .next (s.setFields (erp2Ids (dataBytes s.fields) row s.fields)) := by
          rw [erp2AcRow_eq, hrow]
          dsimp only
          rw [if_pos (not_lt.1 hlong)]
        refine .inr ⟨row, _, _, _, rfl, rfl, rfl, ?_⟩
        rw [hids, andThen_next, radioTail_setFields (erp2TtRow_eq _)]
        rfl

/-- What `ERP2.HDRBYTE` writes. -/
def headerFields (f : Telegram) : Telegram :=
  { f with
    ac := some (headerAc (byteAt (dataBytes f) 0))
    eha := some (headerEha (byteAt (dataBytes f) 0))
    tt := some (headerTt (byteAt (dataBytes f) 0)) }

theorem execErp2Hdrbyte_nonempty {s : State} (h : 1 ≤ (dataBytes s.fields).length) :
    execErp2Hdrbyte s = .next (s.setFields (headerFields s.fields)) := if_pos h

/-- `ERP2.DECODE` turns an empty region away, and reads the header byte of any other. -/
theorem execErp2Decode_cases (s : State) :
    (∃ f, execErp2Decode s = .next (s.setFields f) ∧ f.dl = s.fields.dl) ∨
    ∃ (h : Byte) (f : Telegram), f.dl = s.fields.dl ∧ f.kind = s.fields.kind ∧ f.tt = some (headerTt h) ∧
      execErp2Decode s = erp2Body h (s.setFields f) := by
  have hsub : ∃ f, execErp2Subcrc s = .next (s.setFields f) ∧ f.dl = s.fields.dl ∧ f.kind = s.fields.kind := by
    refine ⟨_, rfl, ?_, ?_⟩ <;> dsimp only <;> split <;> rfl
  obtain ⟨f, heq, hdl, hkind⟩ := hsub
  unfold execErp2Decode
  rw [heq, andThen_next]
  split
  · rename_i hempty
    exact .inl ⟨erp2Empty f, by rw [execErp2Short_eq, if_pos hempty]; rfl, hdl⟩
  · rename_i hlong
    refine .inr ⟨byteAt (dataBytes f) 0, erp2Rorg s.cfg (headerTt (byteAt (dataBytes f) 0)) (headerFields f), hdl, hkind, rfl, ?_⟩
    rw [execErp2Hdrbyte_nonempty (Nat.one_le_iff_ne_zero.2 hlong)]
    rfl

/-! The end of a radio decode. -/

theorem setReport_eq (r : Report) (why : Option Reason) (f : Telegram) :
    setReport r why f = { f with report := r, reason := withReason why f.reason } := by
  cases why <;> rfl

theorem payloadMessage_teachIn (cfg : Config) {f : Telegram} {ti : TeachIn} (h : f.ti = some ti) :
    payloadMessage cfg f = { f with report := teachInReport ti (dlBytes f), learn := true } := by
  unfold payloadMessage
  rw [h]

theorem payloadMessage_dispatch (cfg : Config) {f : Telegram} (h : f.ti = none) :
    payloadMessage cfg f =
      { f with
        report := (dispatch cfg f.eep (dlBytes f)).1
        learn := (dispatch cfg f.eep (dlBytes f)).1.learn
        reason := withReason (dispatch cfg f.eep (dlBytes f)).2 f.reason } := by
  simp only [payloadMessage, h, setReport_eq]

/-- The registers that the slices and the Teach-In decode have written when a radio decode comes to its end. -/
def sliceRegisters (f : Telegram) : Bytes × Kind × Option Byte × Option (BitVec 4) × Option Slice × Option TeachIn :=
  (f.frame, f.kind, f.rorg, f.tt, f.dl, f.ti)

theorem sliceRegisters_payloadMessage (cfg : Config) (f : Telegram) : sliceRegisters (payloadMessage cfg f) = sliceRegisters f := by
  cases h : f.ti with
  | some ti => rw [payloadMessage_teachIn cfg h]; rfl
  | none => rw [payloadMessage_dispatch cfg h]; rfl

theorem sliceRegisters_finishRadio (cfg : Config) (id : Id48) (found : Option RegDevice) (f : Telegram) :
    sliceRegisters (finishRadio cfg id found f) = sliceRegisters f :=
  sliceRegisters_payloadMessage cfg (resolveEep found f)

/-- The payload message: a Teach-In sets `LEARN`, and without one the dispatch gives the report (44_erp2.md R192, 45_erp1.md R211). -/
def MessageOk (cfg : Config) (f : Telegram) : Prop :=
  (f.ti ≠ none → f.learn = true) ∧ (f.ti = none → f.report = (dispatch cfg f.eep (dlBytes f)).1)

theorem messageOk_payloadMessage (cfg : Config) (f : Telegram) : MessageOk cfg (payloadMessage cfg f) := by
  cases h : f.ti with
  | some ti =>
    rw [payloadMessage_teachIn cfg h]
    exact ⟨fun _ => rfl, fun hn => absurd (h.symm.trans hn) (Option.some_ne_none ti)⟩
  | none =>
    rw [payloadMessage_dispatch cfg h]
    exact ⟨fun hn => absurd h hn, fun _ => rfl⟩

theorem messageOk_finishRadio (cfg : Config) (id : Id48) (found : Option RegDevice) (f : Telegram) :
    MessageOk cfg (finishRadio cfg id found f) :=
  messageOk_payloadMessage cfg (resolveEep found f)

/-! 4BS telegrams. -/

theorem dlBytes_congr {f g : Telegram} (hframe : f.frame = g.frame) (hdl : f.dl = g.dl) : dlBytes f = dlBytes g := by
  unfold dlBytes sliceBytes
  rw [hframe, hdl]

/-- What a radio decode makes of a 4BS payload: the Teach-In is that of `TEACHIN_4BS` over Data_DL, and the message follows it. -/
def FourBsDecoded (cfg : Config) (f : Telegram) : Prop :=
  f.ti = teachIn4bs cfg.teachin4bs (dlBytes f) ∧ MessageOk cfg f

/-- The end of a radio decode changes neither the Teach-In nor Data_DL, and writes the message that follows from them. -/
theorem fourBsDecoded_finishRadio {cfg : Config} {id : Id48} {found : Option RegDevice} {f : Telegram}
    (h : f.ti = teachIn4bs cfg.teachin4bs (dlBytes f)) : FourBsDecoded cfg (finishRadio cfg id found f) := by
  have hkeep := sliceRegisters_finishRadio cfg id found f
  simp only [sliceRegisters, Prod.mk.injEq] at hkeep
  obtain ⟨hframe, -, -, -, hdl, hti⟩ := hkeep
  exact ⟨by rw [hti, dlBytes_congr hframe hdl]; exact h, messageOk_finishRadio cfg id found f⟩

/-- `ERP1.DECODE` slices Data_DL only where it reads the payload, and then a 4BS one as `TEACHIN_4BS` says. -/
theorem execErp1Decode_fourBs {s t : State} (ht : execErp1Decode s = .next t) (hs : s.fields.dl = none)
    (hdl : t.fields.dl ≠ none) :
    t.fields.kind = s.fields.kind ∧ (t.fields.rorg = some rorg4bs → FourBsDecoded s.cfg t.fields) := by
  by_cases hn : 7 ≤ (dataBytes s.fields).length
  · obtain ⟨f, g, id, hf, hg, -, heq⟩ := execErp1Decode_long hn
    obtain rfl := Host.Outcome.next.inj (heq.symm.trans ht)
    have hkeep := sliceRegisters_finishRadio s.cfg id (regLookup s.reg id) g
    simp only [sliceRegisters, Prod.mk.injEq] at hkeep
    obtain ⟨-, hkind, hrorg, -, -, -⟩ := hkeep
    refine ⟨hkind.trans (by rw [hg, hf]; rfl), fun h => fourBsDecoded_finishRadio ?_⟩
    have hbyte : byteAt (dataBytes s.fields) 0 = rorg4bs := by
      have h0 : g.rorg = some (byteAt (dataBytes s.fields) 0) := by rw [hg, hf]; rfl
      exact Option.some.inj (h0.symm.trans (hrorg.symm.trans h))
    rw [hg, hbyte]
    rfl
  · rw [execErp1Decode_short hn] at ht
    obtain rfl := Host.Outcome.next.inj ht
    exact absurd hs hdl

/-- `ERP2.DECODE` slices Data_DL only behind its guards, and then reads that of Telegram Type 2 as `TEACHIN_4BS` says. -/
theorem execErp2Decode_fourBs {s t : State} (ht : execErp2Decode s = .next t) (hs : s.fields.dl = none)
    (hdl : t.fields.dl ≠ none) :
    t.fields.kind = s.fields.kind ∧ (t.fields.tt = some 2 → FourBsDecoded s.cfg t.fields) := by
  rcases execErp2Decode_cases s with ⟨f, heq, hf⟩ | ⟨h, f, hfdl, hfkind, hftt, heq⟩
  · obtain rfl := Host.Outcome.next.inj (heq.symm.trans ht)
    exact absurd (hf.trans hs) hdl
  · rw [heq] at ht
    rcases erp2Body_cases h (s.setFields f) with ⟨f', heq', hf'⟩ | ⟨row, f', g, id, hf', hg, -, heq'⟩
    · obtain rfl := Host.Outcome.next.inj (heq'.symm.trans ht)
      exact absurd (hf'.trans (hfdl.trans hs)) hdl
    · obtain rfl := Host.Outcome.next.inj (heq'.symm.trans ht)
      have hkeep := sliceRegisters_finishRadio s.cfg id (regLookup s.reg id) g
      simp only [sliceRegisters, Prod.mk.injEq] at hkeep
      obtain ⟨-, hkind, -, htt, -, -⟩ := hkeep
      refine ⟨hkind.trans (Eq.trans (by rw [hg, hf']; rfl) hfkind), fun h2 => fourBsDecoded_finishRadio ?_⟩
      have htype : headerTt h = 2 := by
        have h0 : g.tt = some (headerTt h) := Eq.trans (by rw [hg, hf']; rfl) hftt
        exact Option.some.inj (h0.symm.trans (htt.symm.trans h2))
      rw [hg, htype]
      rfl

/-- The telegrams that the radio decoders read as 4BS: ERP1 by the RORG byte, ERP2 by the Telegram Type. -/
def IsFourBs (f : Telegram) : Prop := (f.kind = .erp1 ∧ f.rorg = some rorg4bs) ∨ (f.kind = .erp2 ∧ f.tt = some 2)

/-- The row of the packet type decodes the payload of a 4BS telegram whose Data_DL it has sliced. -/
theorem esp3Row_fourBs {p : Byte} {s t : State} (ht : esp3Row p s = .next t) (hs : s.fields.dl = none)
    (hdl : t.fields.dl ≠ none) (h4 : IsFourBs t.fields) : FourBsDecoded s.cfg t.fields := by
  unfold esp3Row at ht
  split at ht
  · obtain ⟨hkind, hdec⟩ := execErp2Decode_fourBs ht hs hdl
    rcases h4 with ⟨h1, -⟩ | ⟨-, htt⟩
    · cases h1.symm.trans hkind
    · exact hdec htt
  · split at ht
    · obtain ⟨hkind, hdec⟩ := execErp1Decode_fourBs ht hs hdl
      rcases h4 with ⟨-, hrorg⟩ | ⟨h2, -⟩
      · exact hdec hrorg
      · cases h2.symm.trans hkind
    · obtain rfl := Host.Outcome.next.inj ht
      exact absurd hs hdl

/-- The registers that say what a radio decode has made of its payload. -/
def messageRegisters (f : Telegram) :
    (Bytes × Kind × Option Byte × Option (BitVec 4) × Option Slice × Option TeachIn) × Option Eep × Report × Bool :=
  (sliceRegisters f, f.eep, f.report, f.learn)

/-- The record of a frame has these registers from the row of its packet type, run with no Data_DL sliced. -/
theorem decodeFrame_row {cfg : Config} {reg : List RegDevice} {frame : Bytes} {r : Telegram}
    (h : decodeFrame cfg reg frame = some r) :
    ∃ (p : Byte) (s t : State), s.cfg = cfg ∧ s.fields.dl = none ∧ esp3Row p s = .next t ∧
      messageRegisters r = messageRegisters t.fields := by
  have hrest : Keeps messageRegisters fun s4 =>
      andThen (if s4.fields.olen ≠ 0 then execEsp3Opt s4
        else .next (s4.setFields { s4.fields with opt := ⟨6 + s4.fields.dlen.toNat, 0⟩, dbm := none })) fun s5 =>
      andThen (execEsp3Crc8d s5) execEsp3Merge := by
    refine Keeps.andThen ?_ (Keeps.andThen (Keeps.write (fun s => crc8dFields s.cfg s.fields) fun s => ?_) ?_)
    · exact Keeps.cond (fun s => s.fields.olen ≠ 0) (Keeps.write (fun s => optFields s.cfg s.fields) fun _ => rfl)
        (Keeps.write (fun s => { s.fields with opt := ⟨6 + s.fields.dlen.toNat, 0⟩, dbm := none }) fun _ => rfl)
    · unfold crc8dFields
      split <;> rfl
    · intro s t ht
      obtain rfl := Host.Outcome.next.inj ht
      rfl
  unfold decodeFrame at h
  split at h
  case isFalse => cases h
  case isTrue =>
    split at h
    case h_2 => cases h
    case h_1 u hu =>
      obtain rfl := Option.some.inj h
      unfold execEsp3Decode at hu
      rw [execEsp3Hdr_eq, andThen_next, execEsp3Crc8h_eq, andThen_next] at hu
      obtain ⟨t, ht, hu⟩ := (andThen_eq_next _ _ _).1 hu
      refine ⟨_, _, t, ?_, ?_, ht, hrest t u hu⟩
      · rfl
      · rw [setFields_fields, crc8hFields]
        dsimp only
        split <;> rfl

/-- In a decoded frame the payload of a 4BS telegram has been read as `TEACHIN_4BS` and the dispatch say. -/
theorem decodeFrame_fourBs {cfg : Config} {reg : List RegDevice} {frame : Bytes} {r : Telegram}
    (h : decodeFrame cfg reg frame = some r) (hdl : r.dl ≠ none) (h4 : IsFourBs r) : FourBsDecoded cfg r := by
  obtain ⟨p, s, t, rfl, hs, ht, hreg⟩ := decodeFrame_row h
  simp only [messageRegisters, sliceRegisters, Prod.mk.injEq] at hreg
  obtain ⟨⟨hframe, hkind, hrorg, htt, hdl', hti⟩, heep, hreport, hlearn⟩ := hreg
  have hdec := esp3Row_fourBs ht hs (hdl' ▸ hdl) (by unfold IsFourBs at *; rwa [← hkind, ← hrorg, ← htt])
  unfold FourBsDecoded MessageOk at *
  rwa [hti, heep, hreport, hlearn, dlBytes_congr hframe hdl']

/-- For four bytes the learn bit alone decides (U17). -/
theorem teachIn4bs_four (t : Teachin4bs) (b3 b2 b1 b0 : Byte) :
    (b0.getLsbD 3 = false → teachIn4bs t [b3, b2, b1, b0] ≠ none) ∧
    (b0.getLsbD 3 = true → teachIn4bs t [b3, b2, b1, b0] = none) := by
  have hbit : bfBit (byteAt [b3, b2, b1, b0] 3) 3 = (b0.getLsbD 3).toNat := bfBit_eq b0 3
  unfold teachIn4bs
  rw [hbit]
  refine ⟨fun h => ?_, fun h => ?_⟩ <;> rw [h]
  · rw [if_pos ⟨rfl, rfl⟩]
    exact Option.some_ne_none _
  · exact if_neg fun hn => absurd hn.2 (by decide)

/-- Settles O57: the payload of a 4BS telegram is read by `TEACHIN_4BS`, whose success is the learn bit alone, and the registry enters
after it. -/
theorem fourBsLearnBitDecidesTheTeachIn : Obligations.FourBsLearnBitDecidesTheTeachIn := by
  intro cfg reg frame r b3 b2 b1 b0 hdec h4 hbytes
  have hdl : r.dl ≠ none := by
    intro hnone
    rw [dlBytes, hnone] at hbytes
    cases hbytes
  obtain ⟨hti, hlearn, hreport⟩ := decodeFrame_fourBs hdec hdl h4
  rw [hbytes] at hti hreport
  obtain ⟨hclear, hset⟩ := teachIn4bs_four cfg.teachin4bs b3 b2 b1 b0
  refine ⟨fun hb => ?_, fun hb => ?_⟩
  · have hsome : r.ti ≠ none := hti ▸ hclear hb
    exact ⟨hsome, hlearn hsome, if_pos (hlearn hsome)⟩
  · have hnone : r.ti = none := hti.trans (hset hb)
    exact ⟨hnone, hreport hnone⟩

end Sys2Proof.Machine
end

section
/-! PROOFS. The operations run alone outside the condition of their rule (spec/30_encoding.md R80, R84, R102). -/

namespace Sys2Proof.Machine

/-! The extractors on every operand (spec/41_bitfield.md). -/

/-- Two fields put together fit the sum of their widths (41_bitfield.md R133). -/
theorem bfCat_lt {a wa b wb : Nat} (ha : a < 2 ^ wa) (hb : b < 2 ^ wb) : bfCat a b wb < 2 ^ (wa + wb) := by
  calc a * 2 ^ wb + b < a * 2 ^ wb + 2 ^ wb := Nat.add_lt_add_left hb _
    _ = (a + 1) * 2 ^ wb := (Nat.succ_mul a _).symm
    _ ≤ 2 ^ wa * 2 ^ wb := Nat.mul_le_mul_right _ ha
    _ = 2 ^ (wa + wb) := (Nat.pow_add 2 wa wb).symm

theorem exec_bfCat_lt (s : State) (a wa b wb : Nat) :
    ∃ n, n < 2 ^ (wa + wb) ∧ exec (.bfCat a wa b wb) s = .next { s with fnOut := some (.num n) } := by
  refine ⟨_, ?_, rfl⟩
  split
  case isTrue h => exact bfCat_lt h.1 h.2
  case isFalse => exact Nat.mod_lt _ (Nat.two_pow_pos _)

theorem exec_bfU16_lt (s : State) (bytes : Bytes) (a : Nat) :
    ∃ n, n < 65536 ∧ exec (.bfU16 bytes a) s = .next { s with fnOut := some (.num n) } := by
  refine ⟨_, ?_, rfl⟩
  split
  · exact bfU16_lt _ _ _
  · exact (Config.openU16 _ bytes a).isLt

/-- A slice whose end is not beyond its start is empty (00_scope.md R11). -/
theorem exec_bfSlice_empty (s : State) (bytes : Bytes) (a b : Nat) :
    ∃ r, exec (.bfSlice bytes a b) s = .next { s with fnOut := some (.bytes r) } ∧ (b ≤ a → r = []) := by
  refine ⟨_, rfl, fun h => ?_⟩
  rw [if_pos (.inl h), bfSlice, Nat.sub_eq_zero_of_le h, List.take_zero]

/-! The Reassembler's operations where they are not selected. -/

theorem offeredChunk_eq_none {s : State} (h : ∀ c rest, s.input ≠ .chunk c :: rest) : offeredChunk s = none := by
  unfold offeredChunk
  split
  case h_1 c rest hin => exact absurd hin (h c rest)
  case h_2 => rfl

theorem offeredChunk_eq_some {s : State} {c : Bytes} {rest : List Input} (h : s.input = .chunk c :: rest) :
    offeredChunk s = some c := by
  rw [offeredChunk, h]

/-- While no chunk is offered nothing happens (60_exceptions.md R283). -/
theorem exec_rsm_noChunk {s : State} (h : offeredChunk s = none) (b : Byte) :
    ∀ i ∈ [Instr.rsmStep, .rsmNop, .rsmStart, .rsmAppend, .rsmDrop b], exec i s = .next s := by
  simp only [List.forall_mem_cons, exec, execRsmStep, execRsmNop, execRsmStart, execRsmAppend, execRsmDrop, h]
  simp

/-- An operation whose key does not match the offered chunk leaves it (R84; assumption 7). -/
theorem exec_rsm_notSelected {s : State} {c : Bytes} (h : offeredChunk s = some c) :
    (c ≠ [] → exec .rsmNop s = .next s) ∧
    (s.rsm ≠ .idle ∨ c.head? ≠ some 0x55 → exec .rsmStart s = .next s) ∧
    (s.rsm ≠ .accumulating ∨ c = [] → exec .rsmAppend s = .next s) ∧
    ∀ b, s.rsm ≠ .idle ∨ c.head? ≠ some b ∨ b = 0x55 → exec (.rsmDrop b) s = .next s := by
  simp only [exec, execRsmNop, execRsmStart, execRsmAppend, execRsmDrop, h]
  refine ⟨fun hc => if_neg hc, fun hs => if_neg ?_, fun hs => if_neg ?_, fun b hs => if_neg ?_⟩
  · exact fun hn => hs.elim (· hn.1) (· hn.2)
  · exact fun hn => hs.elim (· hn.1) hn.2
  · exact fun hn => hs.elim (· hn.1) (·.elim (· hn.2.1) hn.2.2)

/-- While `FLEN <= 6` the lengths are not read (42_reassembler.md R141). -/
theorem exec_rsm_shortCount {s : State} (h : s.flen ≤ 6) : exec .rsmEmit s = .next s ∧ exec .rsmOverrun s = .next s :=
  ⟨withVlen_short s _ _ h, withVlen_short s _ _ h⟩

/-- Where the buffer lacks the length bytes the comparison stops (assumption 2). -/
theorem withVlen_none {s : State} (short : Answer) (k : Nat → Answer) (h6 : 6 < s.flen) (hv : vlen s = none) :
    withVlen s short k = .fault (.frameSpace 0) := by
  rw [withVlen, if_pos h6, hv]

theorem execRsmEmit_of_vlen {s : State} {v : Nat} (h6 : 6 < s.flen) (hv : vlen s = some v) :
    execRsmEmit s =
      if s.flen = v then
        match memReadBytes s.mem 0 v with
        | none => .fault (.frameSpace 0)
        | some frame => handOff frame s
      else .next s :=
  withVlen_some s _ _ v h6 hv

/-- Whatever bytes the buffer holds, they are handed over and decoded. -/
theorem execRsmEmit_handsOver {s : State} {v : Nat} {frame : Bytes} (h6 : 6 < s.flen) (hv : vlen s = some v) (hlen : s.flen = v)
    (hread : memReadBytes s.mem 0 v = some frame) :
    ∃ t, exec .esp3Decode { s with fields := { blankTelegram with frame := frame } } = .next t ∧
      exec .rsmEmit s = .next { t with rsm := .idle, flen := 0, fields := blankTelegram } := by
  obtain ⟨f, q, hrun, -⟩ := execEsp3Decode_runs (s.setFields { blankTelegram with frame := frame })
  refine ⟨_, hrun, ?_⟩
  show execRsmEmit s = _
  rw [execRsmEmit_of_vlen h6 hv, if_pos hlen, hread]
  exact (handOff_eq_next frame s _).2 ⟨_, hrun, rfl⟩

/-- The comparison operations that `FLEN` and `VLEN` do not select, and the read that finds a byte missing. -/
theorem exec_rsm_comparison {s : State} {v : Nat} (hv : vlen s = some v) (h6 : 6 < s.flen) :
    (s.flen ≠ v → exec .rsmEmit s = .next s) ∧
    (s.flen ≤ v → exec .rsmOverrun s = .next s) ∧
    (s.flen = v → memReadBytes s.mem 0 v = none → exec .rsmEmit s = .fault (.frameSpace 0)) := by
  refine ⟨fun hne => ?_, fun hle => ?_, fun hlen hread => ?_⟩
  · exact (execRsmEmit_of_vlen h6 hv).trans (if_neg hne)
  · exact (withVlen_some s _ _ v h6 hv).trans (if_neg (not_lt.2 hle))
  · exact (execRsmEmit_of_vlen h6 hv).trans (by rw [if_pos hlen, hread])

/-! The frame decoder's operations on every `FRAME` (spec/43_esp3_frame.md; assumption 32). -/

/-- Two bytes as a number of 16 bits, the first most significant. -/
theorem ofNat_two_bytes (x y : Byte) : BitVec.ofNat 16 (x.toNat * 256 + y.toNat) = x ++ y := by
  apply BitVec.eq_of_toNat_eq
  rw [BitVec.toNat_append, BitVec.toNat_ofNat, ← Nat.shiftLeft_add_eq_or_of_lt y.isLt, Nat.shiftLeft_eq]
  omega

theorem hdrFields_dlen (c : Config) (f : Telegram) :
    (hdrFields c f).dlen =
      match c.lenOrder with
      | .big => frameByte f.frame 1 ++ frameByte f.frame 2
      | .little => frameByte f.frame 2 ++ frameByte f.frame 1 := by
  cases h : c.lenOrder <;> simp only [hdrFields, bfU16, h] <;> exact ofNat_two_bytes _ _

/-- A check that fails records its reason (60_exceptions.md R261). -/
theorem ite_degrade_eq (p : Prop) [Decidable p] (r : Reason) (f : Telegram) :
    (if p then f else degrade r f) = { f with reason := withReason (if p then none else some r) f.reason } := by
  split <;> rfl

theorem crc8hFields_eq (c : Config) (f : Telegram) :
    crc8hFields c f =
      { f with
        crc8hOk := decide (crc8 c.crc8Table (frameBytes f.frame 1 4) = frameByte f.frame 5)
        reason := withReason
          (if crc8 c.crc8Table (frameBytes f.frame 1 4) = frameByte f.frame 5 then none else some .hdrCrc) f.reason } := by
  simp only [crc8hFields, ite_degrade_eq, crc8Ok, decide_eq_true_eq]

theorem crc8dFields_eq (c : Config) (f : Telegram) :
    crc8dFields c f =
      { f with
        crc8d := frameByte f.frame (6 + (f.dlen.toNat + f.olen.toNat))
        crc8dOk := decide (crc8 c.crc8Table (frameBytes f.frame 6 (f.dlen.toNat + f.olen.toNat)) =
          frameByte f.frame (6 + (f.dlen.toNat + f.olen.toNat)))
        reason := withReason
          (if crc8 c.crc8Table (frameBytes f.frame 6 (f.dlen.toNat + f.olen.toNat)) =
              frameByte f.frame (6 + (f.dlen.toNat + f.olen.toNat)) then none else some .dataCrc) f.reason } := by
  simp only [crc8dFields, ite_degrade_eq, crc8Ok, decide_eq_true_eq]

/-- The row of `OPT_TABLE` for a packet type is the first with that type (30_encoding.md R101). -/
theorem optLookup_eq_find? (table : List (Byte × Nat)) (p : Byte) :
    optLookup table p = (table.find? (fun row => decide (row.1 = p))).map Prod.snd := by
  induction table with
  | nil => rfl
  | cons r rs ih =>
    by_cases h : r.1 = p
    · simp [optLookup, h]
    · simp [optLookup, h, ih]

/-- `DBM` is the byte at the offset of the packet type's row, if both are there (43_esp3_frame.md R167). -/
theorem dbmOf_eq (table : List (Byte × Nat)) (p : Byte) (o : Bytes) :
    dbmOf table p o =
      ((table.find? (fun row => decide (row.1 = p))).bind (fun row => o[row.2]?)).map (fun b => -(b.toNat : Int)) := by
  unfold dbmOf
  rw [optLookup_eq_find?]
  cases table.find? (fun row => decide (row.1 = p)) with
  | none => rfl
  | some row =>
    by_cases h : row.2 < o.length
    · simp [h, byteAt]
    · simp [h]

/-- The bytes that an operation of the frame decoder reads agree with `FRAME` where `FRAME` has them. -/
theorem frameBytes_agree (frame : Bytes) (off n k : Nat) (b : Byte) (hk : k < (frameBytes frame off n).length)
    (hb : frame[off + k]? = some b) : (frameBytes frame off n)[k]? = some b := by
  rw [frameBytes_getElem? frame off n k (by rwa [frameBytes_length] at hk), frameByte_of_getElem? hb]

/-- `ESP3.HDR` and `ESP3.CRC8H` read the first six bytes (R161, R162). -/
theorem exec_esp3_header (s : State) :
    ∃ hd : Fin 6 → Byte, (∀ (k : Fin 6) (b : Byte), s.fields.frame[k.val]? = some b → hd k = b) ∧
      exec .esp3Hdr s =
        .next { s with
          fields := { s.fields with
            dlen := (match s.cfg.lenOrder with | .big => hd 1 ++ hd 2 | .little => hd 2 ++ hd 1)
            olen := hd 3
            ptype := hd 4
            crc8h := hd 5 } } ∧
      exec .esp3Crc8h s =
        .next { s with
          fields := { s.fields with
            crc8hOk := decide (crc8 s.cfg.crc8Table [hd 1, hd 2, hd 3, hd 4] = hd 5)
            reason :=
              withReason (if crc8 s.cfg.crc8Table [hd 1, hd 2, hd 3, hd 4] = hd 5 then none else some .hdrCrc)
                s.fields.reason } } := by
  refine ⟨fun k => frameByte s.fields.frame k.val, fun k b hb => frameByte_of_getElem? hb, ?_, ?_⟩
  · have hfields : hdrFields s.cfg s.fields = { s.fields with
        dlen := (hdrFields s.cfg s.fields).dlen, olen := frameByte s.fields.frame 3, ptype := frameByte s.fields.frame 4,
        crc8h := frameByte s.fields.frame 5 } := rfl
    show execEsp3Hdr s = _
    rw [execEsp3Hdr_eq, hfields, hdrFields_dlen]
    rfl
  · show execEsp3Crc8h s = _
    rw [execEsp3Crc8h_eq, crc8hFields_eq]
    rfl

/-- `ESP3.OTHER` takes `DLEN` bytes as the data region (R164, R165). -/
theorem exec_esp3_other (s : State) :
    ∃ d : Bytes, d.length = s.fields.dlen.toNat ∧
      (∀ (k : Nat) (b : Byte), k < d.length → s.fields.frame[6 + k]? = some b → d[k]? = some b) ∧
      ∀ p, exec (.esp3Other p) s =
        .next { s with
          fields := { s.fields with
            data := ⟨6, d.length⟩
            kind := .other
            crcsubOk := none
            isOpaque := true
            report := ⟨[], none, false, d⟩
            learn := false
            known := false
            reason := withReason (some .ptypeUnknown) s.fields.reason } } := by
  refine ⟨frameBytes s.fields.frame 6 s.fields.dlen.toNat, frameBytes_length _ _ _, frameBytes_agree _ _ _, fun p => ?_⟩
  rw [frameBytes_length]
  rfl

/-- `ESP3.OPT` takes `OLEN` bytes as the optional region (R166, R167). -/
theorem exec_esp3_opt (s : State) :
    ∃ o : Bytes, o.length = s.fields.olen.toNat ∧
      (∀ (k : Nat) (b : Byte), k < o.length → s.fields.frame[6 + s.fields.dlen.toNat + k]? = some b → o[k]? = some b) ∧
      exec .esp3Opt s =
        .next { s with
          fields := { s.fields with
            opt := ⟨6 + s.fields.dlen.toNat, o.length⟩
            dbm := ((s.cfg.optTable.find? (fun row => decide (row.1 = s.fields.ptype))).bind (fun row => o[row.2]?)).map
              (fun b => -(b.toNat : Int)) } } := by
  refine ⟨frameBytes s.fields.frame (6 + s.fields.dlen.toNat) s.fields.olen.toNat, frameBytes_length _ _ _,
    frameBytes_agree _ _ _, ?_⟩
  rw [frameBytes_length, ← dbmOf_eq]
  rfl

/-- `ESP3.CRC8D` checks the data and the optional region against the byte behind them (R169). -/
theorem exec_esp3_crc8d (s : State) :
    ∃ (d : Bytes) (k : Byte), d.length = s.fields.dlen.toNat + s.fields.olen.toNat ∧
      (∀ (i : Nat) (b : Byte), i < d.length → s.fields.frame[6 + i]? = some b → d[i]? = some b) ∧
      (∀ b, s.fields.frame[6 + d.length]? = some b → k = b) ∧
      exec .esp3Crc8d s =
        .next { s with
          fields := { s.fields with
            crc8d := k
            crc8dOk := decide (crc8 s.cfg.crc8Table d = k)
            reason := withReason (if crc8 s.cfg.crc8Table d = k then none else some .dataCrc) s.fields.reason } } := by
  refine ⟨frameBytes s.fields.frame 6 (s.fields.dlen.toNat + s.fields.olen.toNat),
    frameByte s.fields.frame (6 + (s.fields.dlen.toNat + s.fields.olen.toNat)), frameBytes_length _ _ _,
    frameBytes_agree _ _ _, fun b hb => ?_, ?_⟩
  · rw [frameBytes_length] at hb
    exact frameByte_of_getElem? hb
  · show execEsp3Crc8d s = _
    rw [execEsp3Crc8d_eq, crc8dFields_eq]
    rfl

/-! The radio operations on a region of the wrong length (R102; assumption 33). -/

theorem exec_erp2Hdrbyte_empty {s : State} (h : dataBytes s.fields = []) :
    exec .erp2Hdrbyte s =
      .next { s with
        fields := opaqueResult .erp2Short { s.fields with ac := none, eha := none, tt := none, rorg := none } } := by
  show execErp2Hdrbyte s = _
  unfold execErp2Hdrbyte
  rw [h]
  rfl

theorem acLookup_of_getElem? {cfg : Config} {ac : BitVec 3} {row : Option AcRow} (h : cfg.acTable[ac.toNat]? = some row) :
    acLookup cfg ac = row := by
  rw [acLookup, List.getD_eq_getElem?_getD, h]
  rfl

/-- The Address Control operation of a value whose ids do not fit the region. -/
theorem erp2AcRow_short {s : State} {ac : BitVec 3} {row : AcRow} (hrow : s.cfg.acTable[ac.toNat]? = some (some row))
    (hlen : (dataBytes s.fields).length < acNeed row) :
    erp2AcRow ac s = .next { s with fields := opaqueResult .erp2Short s.fields } := by
  rw [erp2AcRow_eq, acLookup_of_getElem? hrow]
  dsimp only
  rw [if_neg (not_le.2 hlen)]
  rfl

/-- Every Address Control operation reads its row of `AC_TABLE`, `ERP2.ACRSV` that of `1xx`. -/
theorem exec_erp2Ac_short {s : State} (eha : BitVec 1) (tt : BitVec 4) (ac : BitVec 2) (row : AcRow)
    (hlen : (dataBytes s.fields).length < acNeed row) :
    ∀ p ∈ [(Instr.erp2Ac0 eha tt, 0), (.erp2Ac1 eha tt, 1), (.erp2Ac2 eha tt, 2), (.erp2Ac3 eha tt, 3),
           (.erp2Acrsv ac eha tt, 4 + ac.toNat)],
      s.cfg.acTable[p.2]? = some (some row) →
      exec p.1 s = .next { s with fields := opaqueResult .erp2Short s.fields } := by
  simp only [List.forall_mem_cons]
  refine ⟨fun h => ?_, fun h => ?_, fun h => ?_, fun h => ?_, fun h => ?_, fun _ hp => absurd hp List.not_mem_nil⟩
  · exact erp2AcRow_short (ac := 0) h hlen
  · exact erp2AcRow_short (ac := 1) h hlen
  · exact erp2AcRow_short (ac := 2) h hlen
  · exact erp2AcRow_short (ac := 3) h hlen
  · exact erp2AcRow_short (reservedAc_toNat ac ▸ h) hlen

/-- `ERP2.SHORT` does not match a region that holds what its addressing needs (30_encoding.md R80). -/
theorem exec_erp2Short_long {s : State} (hne : dataBytes s.fields ≠ [])
    (h : ∀ ac row, s.fields.ac = some ac → s.cfg.acTable[ac.toNat]? = some (some row) →
      acNeed row ≤ (dataBytes s.fields).length) :
    exec .erp2Short s = .next s := by
  have hshort : erp2IsShort s = false := by
    unfold erp2IsShort
    cases hac : s.fields.ac.bind (acLookup s.cfg) with
    | none => rfl
    | some row =>
      obtain ⟨ac, hac, hrow⟩ := Option.bind_eq_some_iff.1 hac
      have htable : s.cfg.acTable[ac.toNat]? = some (some row) := by
        rw [acLookup, List.getD_eq_getElem?_getD] at hrow
        cases hget : s.cfg.acTable[ac.toNat]? with
        | none => rw [hget] at hrow; cases hrow
        | some r => rw [hget] at hrow; exact congrArg some hrow
      exact decide_eq_false (not_lt.2 (h ac row hac htable))
  show execErp2Short s = _
  rw [execErp2Short_eq, if_neg (fun h0 => hne (List.length_eq_zero_iff.1 h0)), hshort]
  rfl

theorem exec_erp1Fields_short {s : State} (h : (dataBytes s.fields).length < 7) :
    exec .erp1Fields s = .next { s with fields := opaqueResult .erp1Short s.fields } := if_neg (not_le.2 h)

theorem exec_erp1Short_long {s : State} (h : 7 ≤ (dataBytes s.fields).length) : exec .erp1Short s = .next s :=
  if_neg (not_lt.2 h)

/-- Settles O39, operation by operation: the lemmas of this section in the order of the statement. -/
theorem operationsOutsideTheirCondition : Obligations.OperationsOutsideTheirCondition := by
  intro s
  refine ⟨fun b hi lo => ⟨_, rfl⟩, exec_bfCat_lt s, exec_bfU16_lt s, exec_bfSlice_empty s, fun id => ⟨_, rfl⟩, ?_, ?_,
    exec_rsm_shortCount, ?_, ?_, exec_esp3_header s, exec_esp3_other s, exec_esp3_opt s, exec_esp3_crc8d s,
    exec_erp2Hdrbyte_empty, exec_erp2Ac_short, exec_erp2Short_long, exec_erp1Fields_short, exec_erp1Short_long⟩
  · exact fun h b => exec_rsm_noChunk (offeredChunk_eq_none h) b
  · exact fun c rest h => exec_rsm_notSelected (offeredChunk_eq_some h)
  · exact fun h6 hv => ⟨withVlen_none _ _ h6 hv, withVlen_none _ _ h6 hv⟩
  · intro v hv h6
    obtain ⟨hne, hle, hgap⟩ := exec_rsm_comparison hv h6
    exact ⟨hne, hle, hgap, fun frame hlen hread => execRsmEmit_handsOver h6 hv hlen hread⟩

end Sys2Proof.Machine
end

section
/-! PROOFS. The CRC8 engine (spec/40_crc8.md). -/

namespace Sys2Proof.Machine

/-! The table loop: its equations, for every table. -/

@[simp] theorem crc8_nil (table : List Byte) : crc8 table [] = 0 := rfl

/-- The loop peels from the right: the last byte is the last look-up (R122). -/
theorem crc8_append_singleton (table : List Byte) (bytes : Bytes) (b : Byte) :
    crc8 table (bytes ++ [b]) = table.getD (crc8 table bytes ^^^ b).toNat 0 :=
  List.foldl_append

/-- A byte equal to the CRC reached so far cancels it, so the look-up is that of entry 0 (R122). -/
theorem crc8_append_crc8 (table : List Byte) (bytes : Bytes) :
    crc8 table (bytes ++ [crc8 table bytes]) = table.getD 0 0 := by
  rw [crc8_append_singleton, BitVec.xor_self]
  rfl

/-- Each zero byte is the CRC of the zero bytes before it, so `crc8_append_crc8` applies at every step. -/
theorem crc8_replicate_zero {table : List Byte} (h0 : table.getD 0 0 = 0) (n : Nat) :
    crc8 table (List.replicate n 0) = 0 := by
  induction n with
  | zero => rfl
  | succ n ih =>
    have hlast := crc8_append_crc8 table (List.replicate n 0)
    rw [ih, h0] at hlast
    rw [List.replicate_succ', hlast]

@[simp] theorem crc8Ok_crc8 (table : List Byte) (bytes : Bytes) : crc8Ok table (crc8 table bytes) bytes = true :=
  decide_eq_true rfl

/-! The two operations at the function port. -/

theorem exec_crc8Compute (bytes : Bytes) (s : State) :
    exec (.crc8Compute bytes) s = .next (answerPort s (.byte (crc8 s.cfg.crc8Table bytes))) := rfl

theorem exec_crc8Verify (k : Byte) (bytes : Bytes) (s : State) :
    exec (.crc8Verify k bytes) s = .next (answerPort s (.bool (crc8Ok s.cfg.crc8Table k bytes))) := rfl

/-- `CRC8.VERIFY` accepts the byte that `CRC8.COMPUTE` answers (R124). -/
theorem exec_crc8Verify_crc8 (bytes : Bytes) (s : State) :
    exec (.crc8Verify (crc8 s.cfg.crc8Table bytes) bytes) s = .next (answerPort s (.bool true)) := by
  rw [exec_crc8Verify, crc8Ok_crc8]

/-- Settles O1: the function is `crc8` over the state's table; the corner cases follow from its last look-up. -/
theorem crc8ComputeIsTheTableLoop : Obligations.Crc8ComputeIsTheTableLoop := by
  intro s
  refine ⟨crc8 s.cfg.crc8Table, crc8_nil _, crc8_append_singleton _, fun bytes => exec_crc8Compute bytes s,
    fun h0 => ⟨crc8_replicate_zero h0, fun bytes => ?_⟩, fun hdefault => ?_⟩
  · rw [crc8_append_crc8, h0]
  · rw [hdefault]
    decide

/-- Settles O2: what `CRC8.VERIFY` compares with is what `CRC8.COMPUTE` answers. -/
theorem crc8VerifyAcceptsWhatComputeGives : Obligations.Crc8VerifyAcceptsWhatComputeGives :=
  fun s k bytes => ⟨exec_crc8Verify k bytes s, crc8 s.cfg.crc8Table bytes, exec_crc8Compute bytes s, exec_crc8Verify_crc8 bytes s⟩

end Sys2Proof.Machine
end

section
/-! PROOFS. The bit-field extractors (spec/41_bitfield.md): what each answers where the condition of its rule holds. -/

namespace Sys2Proof.Machine

/-! `BIT` and `FIELD` (R131, R132). -/

theorem exec_bfBit (b : Byte) (i : Fin 8) (s : State) :
    exec (.bfBit b i) s = .next (answerPort s (.num (bfBit b i.val))) := rfl

theorem bfBit_eq_ite (b : Byte) (i : Nat) : bfBit b i = if b.getLsbD i then 1 else 0 := by
  rw [bfBit_eq]
  cases b.getLsbD i <;> rfl

theorem exec_bfField {lo hi : Fin 8} (h : lo ≤ hi) (b : Byte) (s : State) :
    exec (.bfField b hi lo) s = .next (answerPort s (.num (bfField b hi.val lo.val))) := by
  show execBfField b hi lo s = _
  rw [execBfField, if_pos h]

theorem bfField_lt (b : Byte) (hi lo : Nat) : bfField b hi lo < 2 ^ (hi - lo + 1) := Nat.mod_lt _ (Nat.two_pow_pos _)

/-- Bit `k` of the field is bit `lo + k` of the byte. -/
theorem testBit_bfField (b : Byte) {hi lo k : Nat} (hk : k < hi - lo + 1) :
    (bfField b hi lo).testBit k = b.getLsbD (lo + k) := by
  rw [bfField, Nat.testBit_mod_two_pow, decide_eq_true hk, Bool.true_and, Nat.testBit_shiftRight, BitVec.testBit_toNat]

theorem bfField_whole (b : Byte) : bfField b 7 0 = b.toNat := Nat.mod_eq_of_lt b.isLt

theorem bfField_self (b : Byte) (i : Nat) : bfField b i i = bfBit b i := by
  rw [bfField, Nat.sub_self, bfBit, Nat.zero_add, Nat.pow_one]

/-- Settles O3: both answers are the functions of the rules, and the corner cases are `bfField_whole` and `bfField_self`. -/
theorem bfBitAndFieldReadBits : Obligations.BfBitAndFieldReadBits := by
  intro s b hi lo
  refine ⟨?_, fun hle => ⟨bfField b hi.val lo.val, exec_bfField hle b s, bfField_lt b _ _, fun k hk => testBit_bfField b hk,
    ?_, ?_⟩⟩
  · rw [exec_bfBit, bfBit_eq_ite]
    rfl
  · rintro rfl rfl
    exact bfField_whole b
  · rintro rfl
    rw [exec_bfBit, bfField_self]
    rfl

/-! `CAT` and `U16` (R133, R134). -/

theorem exec_bfCat {a wa b wb : Nat} (ha : a < 2 ^ wa) (hb : b < 2 ^ wb) (s : State) :
    exec (.bfCat a wa b wb) s = .next (answerPort s (.num (bfCat a b wb))) := by
  show execBfCat a wa b wb s = _
  rw [execBfCat, if_pos ⟨ha, hb⟩]

/-- The more significant operand is read back by division. -/
theorem bfCat_div {b wb : Nat} (hb : b < 2 ^ wb) (a : Nat) : bfCat a b wb / 2 ^ wb = a := by
  rw [bfCat, Nat.mul_comm, Nat.mul_add_div (Nat.two_pow_pos wb), Nat.div_eq_of_lt hb, Nat.add_zero]

/-- The less significant operand is read back by the remainder. -/
theorem bfCat_mod {b wb : Nat} (hb : b < 2 ^ wb) (a : Nat) : bfCat a b wb % 2 ^ wb = b := by
  rw [bfCat, Nat.mul_add_mod_self_right, Nat.mod_eq_of_lt hb]

theorem exec_bfU16 {bytes : Bytes} {offset : Nat} (h : offset + 2 ≤ bytes.length) (s : State) :
    exec (.bfU16 bytes offset) s = .next (answerPort s (.num (bfU16 s.cfg.lenOrder bytes offset))) := by
  show execBfU16 bytes offset s = _
  rw [execBfU16, if_pos h]

theorem byteAt_append_add (before rest : Bytes) (k : Nat) : byteAt (before ++ rest) (before.length + k) = byteAt rest k := by
  rw [byteAt, List.getD_append_right _ _ _ _ (Nat.le_add_right _ k), Nat.add_sub_cancel_left, byteAt]

/-- What stands before the offset is not read. -/
theorem bfU16_append_length (order : LenOrder) (before rest : Bytes) :
    bfU16 order (before ++ rest) before.length = bfU16 order rest 0 := by
  have hfirst : byteAt (before ++ rest) before.length = byteAt rest 0 := byteAt_append_add before rest 0
  have hsecond : byteAt (before ++ rest) (before.length + 1) = byteAt rest 1 := byteAt_append_add before rest 1
  cases order <;> simp only [bfU16, hfirst, hsecond]

/-- Settles O4: the answer of `CAT` is the product and sum of its rule, and `U16` reads the two bytes at its offset. -/
theorem bfCatAndU16PutNumbersTogether : Obligations.BfCatAndU16PutNumbersTogether := by
  intro s
  refine ⟨fun a wa b wb ha hb => ⟨bfCat a b wb, exec_bfCat ha hb s, rfl, bfCat_lt ha hb, bfCat_div hb a, bfCat_mod hb a⟩,
    fun before after x y => ?_⟩
  have hroom : before.length + 2 ≤ (before ++ x :: y :: after).length := by
    rw [List.length_append, List.length_cons, List.length_cons]
    omega
  rw [exec_bfU16 hroom, bfU16_append_length]
  cases s.cfg.lenOrder <;> rfl

/-! `SLICE` (R135). -/

theorem exec_bfSlice {bytes : Bytes} {stop : Nat} (h : stop ≤ bytes.length) (start : Nat) (s : State) :
    exec (.bfSlice bytes start stop) s = .next (answerPort s (.bytes (bfSlice bytes start stop))) := by
  show execBfSlice bytes start stop s = _
  rw [execBfSlice, if_pos (.inr h)]

theorem bfSlice_append_append (before middle after : Bytes) :
    bfSlice (before ++ (middle ++ after)) before.length (before.length + middle.length) = middle := by
  rw [bfSlice, List.drop_left, Nat.add_sub_cancel_left, List.take_left]

/-- Settles O5: the slice ends inside the bytes, and drops and takes exactly the middle. -/
theorem bfSliceCutsTheMiddle : Obligations.BfSliceCutsTheMiddle := by
  intro s before middle after
  have hstop : before.length + middle.length ≤ (before ++ (middle ++ after)).length := by
    rw [List.length_append, List.length_append]
    omega
  rw [exec_bfSlice hstop, bfSlice_append_append]
  rfl

/-! `IDNORM` (R136). -/

theorem exec_bfIdnorm {id : Bytes} (h : id.length = 3 ∨ id.length = 4 ∨ id.length = 6) (s : State) :
    exec (.bfIdnorm id) s = .next (answerPort s (.id (bfIdnorm id))) := by
  show execBfIdnorm id s = _
  rw [execBfIdnorm, if_pos h]

/-- The value of a byte string in base 256; `Nat.ofDigits` takes the least significant digit first (20_memory.md R51). -/
theorem bytesValue_eq_ofDigits (bytes : Bytes) : bytesValue bytes = Nat.ofDigits 256 (bytes.map BitVec.toNat).reverse := by
  induction bytes using List.reverseRecOn with
  | nil => rfl
  | append_singleton bytes b ih =>
    have hlast : bytesValue (bytes ++ [b]) = bytesValue bytes * 256 + b.toNat := List.foldl_append
    rw [hlast, ih, List.map_append, List.reverse_append, List.map_singleton, List.reverse_singleton, List.singleton_append,
      Nat.ofDigits_cons]
    omega

theorem bytesValue_lt (bytes : Bytes) : bytesValue bytes < 256 ^ bytes.length := by
  have hdigit : ∀ d ∈ (bytes.map BitVec.toNat).reverse, d < 256 := by
    intro d hd
    obtain ⟨b, -, rfl⟩ := List.mem_map.1 (List.mem_reverse.1 hd)
    exact b.isLt
  have hlt := Nat.ofDigits_lt_base_pow_length (by decide) hdigit
  rwa [List.length_reverse, List.length_map, ← bytesValue_eq_ofDigits] at hlt

/-- Zero bytes in front do not change the value. -/
theorem bytesValue_replicate_zero_append (n : Nat) (bytes : Bytes) :
    bytesValue (List.replicate n 0 ++ bytes) = bytesValue bytes := by
  induction n with
  | zero => rfl
  | succ n ih => exact ih

/-- Up to six bytes fit the 48 bits. -/
theorem bfIdnorm_toNat {id : Bytes} (h : id.length ≤ 6) : (bfIdnorm id).toNat = bytesValue id := by
  have hlt : bytesValue id < 2 ^ 48 := calc
    bytesValue id < 256 ^ id.length := bytesValue_lt id
    _ ≤ 256 ^ 6 := Nat.pow_le_pow_right (by decide) h
    _ = 2 ^ 48 := by decide
  rw [bfIdnorm, BitVec.toNat_ofNat, Nat.mod_eq_of_lt hlt]

theorem bfIdnorm_replicate_zero_append (n : Nat) (id : Bytes) : bfIdnorm (List.replicate n 0 ++ id) = bfIdnorm id := by
  rw [bfIdnorm, bytesValue_replicate_zero_append, bfIdnorm]

/-- Settles O6: the value fits the 48 bits, and zero bytes in front do not change it. -/
theorem bfIdnormIsTheBigEndianValue : Obligations.BfIdnormIsTheBigEndianValue := by
  intro s id hlen
  refine ⟨bfIdnorm id, exec_bfIdnorm hlen s, ?_, fun n hpad => ?_⟩
  · rw [bfIdnorm_toNat (by omega), bytesValue_eq_ofDigits]
  · rw [exec_bfIdnorm (.inr hpad), bfIdnorm_replicate_zero_append]
    rfl

end Sys2Proof.Machine
end

section
/-! PROOFS. The operations of the Reassembler (spec/42_reassembler.md R141 to R148), one at a time and as `RSM.STEP` runs them. -/

namespace Sys2Proof.Machine

/-! The operations on the chunk that selects them. -/

theorem takeInput_eq {s : State} {i : Input} {rest : List Input} (h : s.input = i :: rest) : takeInput s = { s with input := rest } := by
  rw [takeInput, h, List.tail_cons]

theorem exec_rsmNop_empty {s : State} (h : offeredChunk s = some []) : exec .rsmNop s = .next (takeInput s) := by
  show execRsmNop s = _
  simp [execRsmNop, h]

theorem exec_rsmStart_sync {s : State} {c : Bytes} (h : offeredChunk s = some c) (hr : s.rsm = .idle)
    (hc : c.head? = some syncMarker) : exec .rsmStart s = .next (storeChunk 0 c (takeInput s)) := by
  show execRsmStart s = _
  simp [execRsmStart, h, hr, hc]

theorem exec_rsmDrop_other {s : State} {c : Bytes} {b : Byte} (h : offeredChunk s = some c) (hr : s.rsm = .idle)
    (hc : c.head? = some b) (hb : b ≠ syncMarker) : exec (.rsmDrop b) s = .next (pulse (takeInput s) (.drop c.length)) := by
  show execRsmDrop b s = _
  simp [execRsmDrop, h, hr, hc, hb]

theorem exec_rsmAppend_nonempty {s : State} {c : Bytes} (h : offeredChunk s = some c) (hr : s.rsm = .accumulating) (hc : c ≠ []) :
    exec .rsmAppend s = .next (storeChunk s.flen c (takeInput s)) := by
  show execRsmAppend s = _
  simp [execRsmAppend, h, hr, hc]

/-! `RSM.STEP`, by the key of its chunk. -/

theorem step_chunk {s : State} {c : Bytes} {rest : List Input} (h : s.input = .chunk c :: rest) : step s = exec .rsmStep s := by
  rw [step_eq, h]
  rfl

section
variable {s : State} {b : Byte} {c : Bytes}

theorem exec_rsmStep_empty (h : offeredChunk s = some []) : exec .rsmStep s = exec .rsmNop s := by
  show execRsmStep s = _
  rw [execRsmStep_eq s [] h]
  rfl

theorem exec_rsmStep_sync (h : offeredChunk s = some (syncMarker :: c)) (hr : s.rsm = .idle) :
    exec .rsmStep s = andThen (exec .rsmStart s) lengthTest := by
  show execRsmStep s = _
  rw [execRsmStep_eq s _ h, hr]
  rfl

theorem exec_rsmStep_other (h : offeredChunk s = some (b :: c)) (hr : s.rsm = .idle) (hb : b ≠ syncMarker) :
    exec .rsmStep s = exec (.rsmDrop b) s := by
  show execRsmStep s = _
  rw [execRsmStep_eq s _ h, hr]
  exact if_neg hb

theorem exec_rsmStep_append (h : offeredChunk s = some (b :: c)) (hr : s.rsm = .accumulating) :
    exec .rsmStep s = andThen (exec .rsmAppend s) lengthTest := by
  show execRsmStep s = _
  rw [execRsmStep_eq s _ h, hr]
  rfl

end

/-! The length test, by its three outcomes. -/

theorem lengthTest_wait {s : State} (h : s.flen ≤ 6 ∨ ∃ v, vlen s = some v ∧ s.flen < v) : lengthTest s = .next s := by
  rcases Nat.lt_or_ge 6 s.flen with h6 | h6
  · obtain ⟨v, hv, hlt⟩ := h.resolve_left (Nat.not_le.2 h6)
    rw [lengthTest, withVlen_some s _ _ v h6 hv, if_neg (by omega), if_neg (by omega)]
    rfl
  · exact withVlen_short s _ _ h6

theorem lengthTest_emit {s : State} {v : Nat} (h6 : 6 < s.flen) (hv : vlen s = some v) (hlen : s.flen = v) :
    lengthTest s = exec .rsmEmit s := by
  rw [lengthTest, withVlen_some s _ _ v h6 hv, if_pos hlen]
  rfl

theorem lengthTest_overrun {s : State} {v : Nat} (h6 : 6 < s.flen) (hv : vlen s = some v) (hlt : v < s.flen) :
    lengthTest s = exec .rsmOverrun s := by
  rw [lengthTest, withVlen_some s _ _ v h6 hv, if_neg (by omega), if_pos hlt]
  rfl

theorem exec_rsmOverrun_over {s : State} {v : Nat} (h6 : 6 < s.flen) (hv : vlen s = some v) (hlt : v < s.flen) :
    exec .rsmOverrun s = .next (toIdle (pulse s (.overrun s.flen v))) := by
  show execRsmOverrun s = _
  rw [execRsmOverrun, withVlen_some s _ _ v h6 hv, if_pos hlt]

/-- The length test is the operation that the row `CHUNK_LEN` selects (30_encoding.md R84). -/
theorem lengthTest_eq_exec (s : State) : lengthTest s = exec (decodeChunkLen s.flen ((vlen s).getD 0)) s := by
  rcases Nat.lt_or_ge 6 s.flen with h6 | h6
  · cases hv : vlen s with
    | none =>
      have hsel : decodeChunkLen s.flen 0 = .rsmOverrun := by
        rw [decodeChunkLen, if_neg (by omega), if_neg (by omega), if_neg (by omega)]
      rw [Option.getD_none, hsel]
      exact (withVlen_none _ _ h6 hv).trans (withVlen_none _ _ h6 hv).symm
    | some v =>
      rw [Option.getD_some, decodeChunkLen, if_neg (by omega)]
      rcases Nat.lt_trichotomy s.flen v with hlt | heq | hgt
      · rw [if_pos hlt]
        exact lengthTest_wait (.inr ⟨v, hv, hlt⟩)
      · rw [if_neg (by omega), if_pos heq]
        exact lengthTest_emit h6 hv heq
      · rw [if_neg (by omega), if_neg (by omega)]
        exact lengthTest_overrun h6 hv hgt
  · rw [decodeChunkLen, if_pos h6]
    exact lengthTest_wait (.inl h6)

/-! The obligations. -/

/-- Settles O8: `RSM.NOP` takes the empty chunk, and in either state it is what the step runs. -/
theorem rsmNopTakesTheEmptyChunk : Obligations.RsmNopTakesTheEmptyChunk := by
  intro s rest hin
  have hc := offeredChunk_eq_some hin
  have hnop := exec_rsmNop_empty hc
  rw [takeInput_eq hin] at hnop
  exact ⟨hnop, (exec_rsmStep_empty hc).trans hnop⟩

/-- Settles O11: `RSM.DROP` takes the chunk and pulses, and it is what the step runs. -/
theorem rsmDropDiscardsTheWholeChunk : Obligations.RsmDropDiscardsTheWholeChunk := by
  intro s b c rest hin hr hb
  have hc := offeredChunk_eq_some hin
  have hdrop := exec_rsmDrop_other hc hr rfl hb
  rw [takeInput_eq hin] at hdrop
  exact ⟨hdrop, (exec_rsmStep_other hc hr hb).trans hdrop⟩

/-- Settles O9: the chunk is stored from offset 0 on, and a read sees it there below `BUF_CAP`. -/
theorem rsmStartBuffersTheWholeChunk : Obligations.RsmStartBuffersTheWholeChunk := by
  intro s chunk rest hin hr hc
  refine ⟨memWriteBytes s.cfg.bufCap s.mem 0 chunk, ?_, fun a => ?_⟩
  · rw [exec_rsmStart_sync (offeredChunk_eq_some hin) hr hc, takeInput_eq hin, storeChunk, Nat.zero_add]
    rfl
  · simp [memRead_memWriteBytes]

/-- Settles O10: the chunk is stored from `FLEN` on, and a read sees it there below `BUF_CAP`. -/
theorem rsmAppendStoresAtFlen : Obligations.RsmAppendStoresAtFlen := by
  intro s chunk rest hin hr hc
  refine ⟨memWriteBytes s.cfg.bufCap s.mem s.flen chunk, ?_, memRead_memWriteBytes _ _ _ _⟩
  rw [exec_rsmAppend_nonempty (offeredChunk_eq_some hin) hr hc, takeInput_eq hin, storeChunk, ← hr]
  rfl

/-- Settles O12: `RSM.WAIT` answers the same state, and it is what the length test selects on a frame-so-far that is short. -/
theorem rsmWaitChangesNothing : Obligations.RsmWaitChangesNothing := by
  refine fun s => ⟨rfl, fun b c rest t hin hkey hstore hshort => ?_⟩
  have hc := offeredChunk_eq_some hin
  have hwait := lengthTest_wait hshort
  cases hr : s.rsm with
  | idle =>
    obtain rfl : b = syncMarker := hkey.resolve_right (by rw [hr]; exact nofun)
    rw [if_pos hr] at hstore
    rw [exec_rsmStep_sync hc hr, hstore, andThen_next, hwait]
  | accumulating =>
    rw [if_neg (by rw [hr]; exact nofun)] at hstore
    rw [exec_rsmStep_append hc hr, hstore, andThen_next, hwait]

/-- Settles O14: beyond the declared length `RSM.OVERRUN` pulses and goes back to `Idle`. -/
theorem rsmOverrunDiscardsTheBuffer : Obligations.RsmOverrunDiscardsTheBuffer :=
  fun _ _ hv h6 hlt => exec_rsmOverrun_over h6 hv hlt

/-- The `CHUNK` key in `Idle` is what the decoder reads from the chunk (30_encoding.md R80, R84). -/
theorem decode_chunk (c : Bytes) : decode .chunk c = .ok (decodeChunk .idle c.head?) := by
  cases c <;> rfl

/-- Settles O15, by the key of the chunk: empty, the sync marker or another byte in `Idle`, any byte in `Accumulating`. -/
theorem stepRunsTheDecodedOperations : Obligations.StepRunsTheDecodedOperations := by
  intro s c rest hin
  have hc := offeredChunk_eq_some hin
  refine ⟨fun hr => by rw [hr, decode_chunk], step_chunk hin, ?_⟩
  cases c with
  | nil =>
    have hsel : decodeChunk s.rsm ([] : Bytes).head? = .rsmNop := rfl
    rw [hsel, exec_rsmStep_empty hc, exec_rsmNop_empty hc]
    rfl
  | cons b c =>
    cases hr : s.rsm with
    | idle =>
      by_cases hb : b = syncMarker
      · subst hb
        have hsel : decodeChunk .idle (syncMarker :: c).head? = .rsmStart := rfl
        rw [hsel, exec_rsmStep_sync hc hr]
        exact congrArg (andThen _) (funext fun t => (lengthTest_eq_exec t).trans (if_pos (.inl rfl)).symm)
      · have hsel : decodeChunk .idle (b :: c).head? = .rsmDrop b := if_neg hb
        rw [hsel, exec_rsmStep_other hc hr hb, exec_rsmDrop_other hc hr rfl hb]
        simp
    | accumulating =>
      have hsel : decodeChunk .accumulating (b :: c).head? = .rsmAppend := rfl
      rw [hsel, exec_rsmStep_append hc hr]
      exact congrArg (andThen _) (funext fun t => (lengthTest_eq_exec t).trans (if_pos (.inr rfl)).symm)

end Sys2Proof.Machine
end

section
/-! PROOFS. `RSM.EMIT` (spec/42_reassembler.md R145): the buffered frame is decoded, its record emitted, and its originator id, if it has
one, asked of the registry once. -/

namespace Sys2Proof.Machine

/-! A frame decode asks the registry for the id that it slices (44_erp2.md R187, 45_erp1.md R206). -/

/-- An operation that asks the registry nothing and slices no originator id. -/
def Silent (op : State → Answer) : Prop := ∀ s t, op s = .next t → t.regQ = s.regQ ∧ t.fields.oid = s.fields.oid

/-- An operation that, where no originator id has been sliced before, asks the registry once for the one it slices, if it slices one. -/
def AsksOriginator (op : State → Answer) : Prop :=
  ∀ s t, op s = .next t → s.fields.oid = none → t.regQ = s.regQ ++ t.fields.oid.toList

/-- An operation that writes the field registers but not the originator id is silent. -/
theorem Silent.write (g : State → Telegram) (h : ∀ s, (g s).oid = s.fields.oid) : Silent fun s => .next (s.setFields (g s)) := by
  intro s t ht
  obtain rfl := Host.Outcome.next.inj ht
  exact ⟨rfl, h s⟩

theorem Silent.asks {op : State → Answer} (h : Silent op) : AsksOriginator op := by
  intro s t ht hnone
  obtain ⟨hq, hoid⟩ := h s t ht
  simp [hq, hoid, hnone]

theorem Silent.andThen {op k : State → Answer} (ho : Silent op) (hk : Silent k) : Silent fun s => Machine.andThen (op s) k := by
  intro s t ht
  obtain ⟨u, hu, hut⟩ := (andThen_eq_next _ _ _).1 ht
  obtain ⟨hq, hoid⟩ := ho s u hu
  obtain ⟨hq', hoid'⟩ := hk u t hut
  exact ⟨hq'.trans hq, hoid'.trans hoid⟩

theorem Silent.andThen_asks {op k : State → Answer} (ho : Silent op) (hk : AsksOriginator k) :
    AsksOriginator fun s => Machine.andThen (op s) k := by
  intro s t ht hnone
  obtain ⟨u, hu, hut⟩ := (andThen_eq_next _ _ _).1 ht
  obtain ⟨hq, hoid⟩ := ho s u hu
  rw [hk u t hut (hoid.trans hnone), hq]

theorem AsksOriginator.andThen_silent {op k : State → Answer} (ho : AsksOriginator op) (hk : Silent k) :
    AsksOriginator fun s => Machine.andThen (op s) k := by
  intro s t ht hnone
  obtain ⟨u, hu, hut⟩ := (andThen_eq_next _ _ _).1 ht
  obtain ⟨hq, hoid⟩ := hk u t hut
  rw [hq, hoid, ho s u hu hnone]

theorem Silent.cond (p : State → Prop) [DecidablePred p] {op k : State → Answer} (ho : Silent op) (hk : Silent k) :
    Silent fun s => if p s then op s else k s := by
  intro s t ht
  by_cases h : p s
  · exact ho s t ((if_pos h).symm.trans ht)
  · exact hk s t ((if_neg h).symm.trans ht)

theorem AsksOriginator.cond (p : State → Prop) [DecidablePred p] {op k : State → Answer} (ho : AsksOriginator op)
    (hk : AsksOriginator k) : AsksOriginator fun s => if p s then op s else k s := by
  intro s t ht
  by_cases h : p s
  · exact ho s t ((if_pos h).symm.trans ht)
  · exact hk s t ((if_neg h).symm.trans ht)

theorem AsksOriginator.param {β : Type} (a : State → β) {op : β → State → Answer} (ho : ∀ x, AsksOriginator (op x)) :
    AsksOriginator fun s => op (a s) s := fun s t ht => ho (a s) s t ht

theorem oid_payloadMessage (cfg : Config) (f : Telegram) : (payloadMessage cfg f).oid = f.oid := by
  cases h : f.ti with
  | some ti => rw [payloadMessage_teachIn cfg h]
  | none => rw [payloadMessage_dispatch cfg h]

theorem oid_finishRadio (cfg : Config) (id : Id48) (found : Option RegDevice) (f : Telegram) :
    (finishRadio cfg id found f).oid = f.oid :=
  oid_payloadMessage cfg (resolveEep found f)

/-- The end of a radio decode asks for the id that has been sliced. -/
theorem radioTail_asks {teach : State → Answer} (hteach : Silent teach) {s t : State} {id : Id48}
    (ht : radioTail teach s = .next t) (hid : s.fields.oid = some id) : t.regQ = s.regQ ++ t.fields.oid.toList := by
  obtain ⟨u, hu, rfl⟩ := (radioTail_eq_next teach s t).1 ht
  obtain ⟨hq, hoid⟩ := hteach _ u hu
  rw [askRegistry_fields, hid] at hoid
  rw [setFields_regQ, setFields_fields, oid_finishRadio, hq, hoid, hid]
  rfl

theorem erp1TeachRow_silent (rorg : Byte) : Silent (erp1TeachRow rorg) := by
  rw [show erp1TeachRow rorg = _ from funext (erp1TeachRow_eq rorg)]
  exact Silent.write (fun s => setTeachIn _ s.fields) fun _ => rfl

theorem erp2TtRow_silent (tt : BitVec 4) : Silent (erp2TtRow tt) := by
  rw [show erp2TtRow tt = _ from funext (erp2TtRow_eq tt)]
  exact Silent.write _ fun s => by split <;> rfl

/-- `ERP1.DECODE` (45_erp1.md R206). -/
theorem execErp1Decode_asks : AsksOriginator execErp1Decode := by
  intro s t ht hnone
  by_cases hn : 7 ≤ (dataBytes s.fields).length
  · obtain ⟨f, g, id, hf, hg, hid, heq⟩ := execErp1Decode_long hn
    obtain rfl := Host.Outcome.next.inj (heq.symm.trans ht)
    have hoid : g.oid = some id := by rw [hid, hg, hf]; rfl
    rw [setFields_regQ, setFields_fields, oid_finishRadio, hoid]
    rfl
  · obtain rfl := Host.Outcome.next.inj ((execErp1Decode_short hn).symm.trans ht)
    exact (List.append_nil _).symm.trans (congrArg (fun o : Option Id48 => s.regQ ++ o.toList) hnone.symm)

theorem execErp2Short_silent : Silent execErp2Short := by
  rw [show execErp2Short = _ from funext execErp2Short_eq]
  exact Silent.write _ fun s => by split; rfl; split <;> rfl

/-- `ERP2.DECODE` from its header byte on: the guards slice no id, and behind them it is sliced and asked for (44_erp2.md R187). -/
theorem erp2Body_asks (h : Byte) : AsksOriginator (erp2Body h) := by
  intro s t ht hnone
  unfold erp2Body at ht
  split at ht
  case h_1 hrow =>
    rw [erp2AcRow, hrow] at ht
    exact (Silent.write (fun s => opaqueResult .erp2AcReserved s.fields) fun _ => rfl).asks s t ht hnone
  case h_2 row hrow =>
    split at ht
    · exact (Silent.write (fun s => opaqueResult .erp2Eha s.fields) fun _ => rfl).asks s t ht hnone
    · split at ht
      · exact execErp2Short_silent.asks s t ht hnone
      · rename_i hlong
        simp only [erp2AcRow, hrow, if_pos (not_lt.1 hlong), andThen_next] at ht
        have hask := radioTail_asks (erp2TtRow_silent _) ht rfl
        exact hask

/-- `ERP2.DECODE` (44_erp2.md R187). -/
theorem execErp2Decode_asks : AsksOriginator execErp2Decode := by
  have hsub : Silent execErp2Subcrc :=
    Silent.write (fun s => { (if subCrcOk s.cfg.crc8Table (dataBytes s.fields) then s.fields else degrade .subCrc s.fields) with
      crcsubOk := some (subCrcOk s.cfg.crc8Table (dataBytes s.fields)) }) fun s => by dsimp only; split <;> rfl
  have hhdr : Silent execErp2Hdrbyte :=
    Silent.cond (fun s => 1 ≤ (dataBytes s.fields).length) (Silent.write (fun s => headerFields s.fields) fun _ => rfl)
      (Silent.write (fun s => erp2Empty s.fields) fun _ => rfl)
  refine hsub.andThen_asks (AsksOriginator.cond (fun s => (dataBytes s.fields).length = 0) execErp2Short_silent.asks
    (hhdr.andThen_asks ?_))
  exact AsksOriginator.param (fun s => byteAt (dataBytes s.fields) 0)
    (op := fun b s => erp2Body b (s.setFields (erp2Rorg s.cfg (headerTt b) s.fields)))
    fun b => Silent.andThen_asks (Silent.write (fun s => erp2Rorg s.cfg (headerTt b) s.fields) fun _ => rfl) (erp2Body_asks b)

/-- The row of the packet type, with its data region selected. -/
theorem esp3Row_asks (p : Byte) : AsksOriginator (esp3Row p) := by
  have hradio {op : State → Answer} (k : Kind) (h : AsksOriginator op) :
      AsksOriginator fun s => op (s.setFields (selectData k s.fields)) :=
    fun s t ht hnone => h (s.setFields (selectData k s.fields)) t ht hnone
  unfold esp3Row
  refine AsksOriginator.cond (fun _ => p = ptypeErp2) (hradio .erp2 execErp2Decode_asks) ?_
  refine AsksOriginator.cond (fun _ => p = ptypeErp1) (hradio .erp1 execErp1Decode_asks) ?_
  exact (Silent.write (fun s => otherFields s.fields) fun _ => rfl).asks

theorem oid_crc8hFields (c : Config) (f : Telegram) : (crc8hFields c f).oid = f.oid := by
  unfold crc8hFields
  dsimp only
  split <;> rfl

theorem oid_crc8dFields (c : Config) (f : Telegram) : (crc8dFields c f).oid = f.oid := by
  unfold crc8dFields
  dsimp only
  split <;> rfl

/-- The frame decoder: only the row of the packet type slices an id and asks for it. -/
theorem execEsp3Decode_asks : AsksOriginator execEsp3Decode := by
  have hopt : Silent fun s => if s.fields.olen ≠ 0 then execEsp3Opt s
      else .next (s.setFields { s.fields with opt := ⟨6 + s.fields.dlen.toNat, 0⟩, dbm := none }) :=
    Silent.cond (fun s => s.fields.olen ≠ 0) (Silent.write (fun s => optFields s.cfg s.fields) fun _ => rfl)
      (Silent.write (fun s => { s.fields with opt := ⟨6 + s.fields.dlen.toNat, 0⟩, dbm := none }) fun _ => rfl)
  have hmerge : Silent execEsp3Merge := by
    intro s t ht
    obtain rfl := Host.Outcome.next.inj ht
    exact ⟨rfl, rfl⟩
  refine (Silent.write (fun s => hdrFields s.cfg s.fields) fun _ => rfl).andThen_asks ?_
  refine (Silent.write (fun s => crc8hFields s.cfg s.fields) fun s => oid_crc8hFields s.cfg s.fields).andThen_asks ?_
  refine (AsksOriginator.param (fun s => s.fields.ptype) esp3Row_asks).andThen_silent (hopt.andThen ?_)
  exact (Silent.write (fun s => crc8dFields s.cfg s.fields) fun s => oid_crc8dFields s.cfg s.fields).andThen hmerge

/-! The bytes of the buffer. -/

/-- Where bytes can be read, the first of them can be read alone. -/
theorem memReadBytes_left {m : Mem} {a : Nat} {p q : Bytes} (h : memReadBytes m a (p ++ q).length = some (p ++ q)) :
    memReadBytes m a p.length = some p := by
  obtain ⟨-, hread⟩ := (memReadBytes_eq_some _ _ _ _).1 h
  refine (memReadBytes_eq_some _ _ _ _).2 ⟨rfl, fun k hk => ?_⟩
  rw [hread k (by rw [List.length_append]; omega), List.getElem?_append_left hk]

theorem byteAt_append_left {p : Bytes} (q : Bytes) {i : Nat} (h : i < p.length) : byteAt (p ++ q) i = byteAt p i :=
  List.getD_append p q 0 i h

/-- The first four bytes declare the length (10_state.md R24). -/
theorem vlenOf_append (order : LenOrder) {p : Bytes} (q : Bytes) (h : 4 ≤ p.length) : vlenOf order (p ++ q) = vlenOf order p := by
  have h1 := byteAt_append_left q (show 1 < p.length by omega)
  have h2 := byteAt_append_left q (show 1 + 1 < p.length by omega)
  have h3 := byteAt_append_left q (show 3 < p.length by omega)
  unfold vlenOf bfU16
  rw [h1, h2, h3]

/-- `VLEN` is what any four bytes or more that the buffer begins with declare. -/
theorem vlen_of_memReadBytes {s : State} {p : Bytes} (h : memReadBytes s.mem 0 p.length = some p) (h4 : 4 ≤ p.length) :
    vlen s = some (vlenOf s.cfg.lenOrder p) := by
  have htake : (p.take 4).length = 4 := List.length_take_of_le h4
  have hhead := memReadBytes_left (p := p.take 4) (q := p.drop 4) (by rwa [List.take_append_drop])
  rw [htake] at hhead
  have hdecl := vlenOf_append s.cfg.lenOrder (p.drop 4) htake.ge
  rw [List.take_append_drop] at hdecl
  rw [vlen, hhead, Option.map_some, hdecl]

/-! The hand-over. -/

/-- A well-formed frame as R149 has it is one as R160 has it. -/
theorem frameOk_of_wellFormed {cfg : Config} {frame : Bytes} (h : WellFormedFrame cfg frame) : frameOk cfg frame = true := by
  obtain ⟨hsync, hlen⟩ := h
  obtain ⟨bs, rfl⟩ := List.head?_eq_some_iff.1 hsync
  simp only [frameOk, Bool.and_eq_true, decide_eq_true_eq]
  exact ⟨⟨by omega, rfl⟩, hlen⟩

/-- What `RSM.EMIT` leaves of a state whose buffer holds a whole frame with this record. -/
def afterEmit (s : State) (r : Telegram) : State :=
  { s with
    rsm := .idle, flen := 0, fields := blankTelegram, regQ := s.regQ ++ r.oid.toList, telOut := s.telOut ++ eventsOf r }

/-- The hand-off of a well-formed frame. -/
theorem handOff_wellFormed {s : State} {frame : Bytes} (h : WellFormedFrame s.cfg frame) :
    ∃ r, decodeFrame s.cfg s.reg frame = some r ∧ r.frame = frame ∧ handOff frame s = .next (afterEmit s r) := by
  obtain ⟨r, q, hdec, hframe, hrun⟩ := execEsp3Decode_eq_decodeFrame (s.setFields { blankTelegram with frame := frame }) frame rfl
    (frameOk_of_wellFormed h)
  have hasked : s.regQ ++ q = s.regQ ++ r.oid.toList := execEsp3Decode_asks _ _ hrun rfl
  refine ⟨r, hdec, hframe, (handOff_eq_next frame s _).2 ⟨_, hrun, ?_⟩⟩
  obtain rfl := List.append_cancel_left hasked
  rfl

/-- `RSM.EMIT` where the buffer holds a well-formed frame and nothing more. -/
theorem exec_rsmEmit_wellFormed {s : State} {frame : Bytes} (h : WellFormedFrame s.cfg frame)
    (hread : memReadBytes s.mem 0 frame.length = some frame) (hflen : s.flen = frame.length) :
    ∃ r, decodeFrame s.cfg s.reg frame = some r ∧ r.frame = frame ∧ exec .rsmEmit s = .next (afterEmit s r) := by
  obtain ⟨r, hdec, hframe, hrun⟩ := handOff_wellFormed h
  obtain ⟨-, hlen⟩ := h
  have hv : vlen s = some frame.length := by
    rw [vlen_of_memReadBytes hread (by omega), hlen]
    rfl
  refine ⟨r, hdec, hframe, ?_⟩
  show execRsmEmit s = _
  rw [execRsmEmit_of_vlen (by omega) hv, if_pos hflen, hread]
  exact hrun

/-- The bytes that the buffer holds up to `VLEN` are a well-formed frame if they begin with the sync marker, because `VLEN` is what they
declare. -/
theorem exec_rsmEmit_declared {s : State} {v : Nat} {frame : Bytes} (hv : vlen s = some v) (hflen : s.flen = v)
    (hread : memReadBytes s.mem 0 v = some frame) (hsync : frame.head? = some syncMarker) :
    ∃ r, decodeFrame s.cfg s.reg frame = some r ∧ r.frame = frame ∧ exec .rsmEmit s = .next (afterEmit s r) := by
  obtain ⟨hlen, -⟩ := (memReadBytes_eq_some _ _ _ _).1 hread
  subst hlen
  have hmin : 7 ≤ frame.length := by
    obtain ⟨head, -, hdecl⟩ := Option.map_eq_some_iff.1 hv
    exact hdecl ▸ (vlenOf_bounds _ head).1
  have hdecl : frame.length = vlenOf s.cfg.lenOrder frame :=
    Option.some.inj (hv.symm.trans (vlen_of_memReadBytes hread (by omega)))
  exact exec_rsmEmit_wellFormed ⟨hsync, hdecl⟩ hread hflen

/-- Settles O13: what the buffer declares is what it holds. -/
theorem rsmEmitHandsTheFrameOver : Obligations.RsmEmitHandsTheFrameOver :=
  fun _ _ _ hv hflen hread hsync => exec_rsmEmit_declared hv hflen hread hsync

end Sys2Proof.Machine
end

section
/-! PROOFS. Frames cut into chunks (spec/42_reassembler.md R146, R149, R150). -/

namespace Sys2Proof.Machine

/-! The buffer after the first chunks of a frame. -/

/-- The bytes of a chunk may be stored in two parts. -/
theorem memWriteBytes_append (cap : Nat) (m : Mem) (a : Nat) (p q : Bytes) :
    memWriteBytes cap m a (p ++ q) = memWriteBytes cap (memWriteBytes cap m a p) (a + p.length) q := by
  induction p generalizing m a with
  | nil => rfl
  | cons b p ih =>
    have hnext : a + (b :: p).length = a + 1 + p.length := by rw [List.length_cons]; omega
    rw [hnext]
    exact ih _ _

theorem memReadBytes_memWriteBytes {cap : Nat} {p : Bytes} (h : p.length ≤ cap) (m : Mem) (q : Bytes) :
    memReadBytes (memWriteBytes cap m 0 (p ++ q)) 0 p.length = some p := by
  refine (memReadBytes_eq_some _ _ _ _).2 ⟨rfl, fun k hk => ?_⟩
  rw [memRead_memWriteBytes, if_pos ⟨Nat.zero_le _, by rw [List.length_append]; omega, by omega⟩, Nat.zero_add, Nat.sub_zero,
    List.getElem?_append_left hk]

/-- The state that the chunks of a frame-so-far `p`, taken from an idle state `s`, lead to before any length test. -/
def frameSoFar (s : State) (p : Bytes) (rest : List Input) : State :=
  { s with
    input := rest
    rsm := if p = [] then .idle else .accumulating
    flen := min p.length flenMax
    mem := memWriteBytes s.cfg.bufCap s.mem 0 p }

theorem flen_of_idle {s : State} (h : Inv s) (hr : s.rsm = .idle) : s.flen = 0 := by
  have hflen := h.rsm
  rwa [RsmOk, hr] at hflen

/-- In `Idle` the frame-so-far is empty. -/
theorem frameSoFar_nil {s : State} {inputs : List Input} (h : Inv s) (hr : s.rsm = .idle) (hin : s.input = inputs) :
    frameSoFar s [] inputs = s := by
  rw [← hin, frameSoFar, if_pos rfl, ← hr, List.length_nil, Nat.zero_min, ← flen_of_idle h hr]
  rfl

/-- One more chunk is added to the frame-so-far, and the length test runs. -/
theorem step_frameSoFar {s : State} {p c : Bytes} (hc : c ≠ []) (hsync : (p ++ c).head? = some syncMarker)
    (hp : p.length ≤ flenMax) (rest : List Input) :
    step (frameSoFar s p (.chunk c :: rest)) = lengthTest (frameSoFar s (p ++ c) rest) := by
  have hoff : offeredChunk (frameSoFar s p (.chunk c :: rest)) = some c := rfl
  have hstore : storeChunk p.length c (takeInput (frameSoFar s p (.chunk c :: rest))) = frameSoFar s (p ++ c) rest := by
    rw [frameSoFar, frameSoFar, if_neg (fun h => hc (List.append_eq_nil_iff.1 h).2), memWriteBytes_append, List.length_append,
      Nat.zero_add]
    rfl
  rw [← hstore, step_chunk rfl]
  obtain ⟨b, c, rfl⟩ := List.exists_cons_of_ne_nil hc
  cases p with
  | nil =>
    obtain rfl : b = syncMarker := Option.some.inj hsync
    rw [exec_rsmStep_sync hoff rfl, exec_rsmStart_sync hoff rfl rfl, andThen_next]
    rfl
  | cons x p =>
    rw [exec_rsmStep_append hoff rfl, exec_rsmAppend_nonempty hoff rfl hc, andThen_next]
    have hflen : (frameSoFar s (x :: p) (.chunk (b :: c) :: rest)).flen = (x :: p).length := Nat.min_eq_left hp
    rw [hflen]

/-- `VLEN` of a frame-so-far whose first bytes are `p`. -/
theorem vlen_frameSoFar {s : State} {p : Bytes} (h4 : 4 ≤ p.length) (hcap : p.length ≤ s.cfg.bufCap) (q : Bytes)
    (rest : List Input) : vlen (frameSoFar s (p ++ q) rest) = some (vlenOf s.cfg.lenOrder p) :=
  vlen_of_memReadBytes (memReadBytes_memWriteBytes hcap s.mem q) h4

/-! The length test on a frame-so-far that is shorter than its frame, the whole of it, or longer. -/

section
variable {s : State} {frame : Bytes}

theorem WellFormedFrame.length_bounds {cfg : Config} (h : WellFormedFrame cfg frame) : 7 ≤ frame.length ∧ frame.length ≤ 65797 :=
  h.2 ▸ vlenOf_bounds cfg.lenOrder frame

theorem WellFormedFrame.head?_append {cfg : Config} (h : WellFormedFrame cfg frame) (more : Bytes) :
    (frame ++ more).head? = some syncMarker := by
  rw [List.head?_append, h.1]
  rfl

/-- Every well-formed frame fits the buffer (10_state.md R22). -/
theorem WellFormedFrame.length_le_bufCap (h : WellFormedFrame s.cfg frame) (hinv : Inv s) : frame.length ≤ s.cfg.bufCap :=
  h.length_bounds.2.trans (cfgWf_bufCap hinv.cfg)

theorem lengthTest_shorter (hinv : Inv s) (h : WellFormedFrame s.cfg frame) {p more : Bytes} (hcut : frame = p ++ more)
    (hmore : more ≠ []) (rest : List Input) : lengthTest (frameSoFar s p rest) = .next (frameSoFar s p rest) := by
  have hcap := h.length_le_bufCap hinv
  obtain ⟨-, hdecl⟩ := h
  have hlt : p.length < frame.length := by
    have := List.length_pos_iff.2 hmore
    rw [hcut, List.length_append]
    omega
  have hflen : (frameSoFar s p rest).flen ≤ p.length := Nat.min_le_left _ _
  refine lengthTest_wait ?_
  rcases Nat.lt_or_ge p.length 4 with h4 | h4
  · exact .inl (by omega)
  · have hv := vlen_frameSoFar (s := s) h4 (by omega) [] rest
    rw [List.append_nil] at hv
    have hsame : frame.length = vlenOf s.cfg.lenOrder p := by rw [← vlenOf_append _ more h4, ← hcut]; exact hdecl
    exact .inr ⟨_, hv, by omega⟩

theorem lengthTest_whole (hinv : Inv s) (h : WellFormedFrame s.cfg frame) (rest : List Input) :
    ∃ r, decodeFrame s.cfg s.reg frame = some r ∧ r.frame = frame ∧
      lengthTest (frameSoFar s frame rest) = .next (afterEmit (frameSoFar s frame rest) r) := by
  obtain ⟨hmin, hmax⟩ := h.length_bounds
  have hcap := h.length_le_bufCap hinv
  have hflen : (frameSoFar s frame rest).flen = frame.length := Nat.min_eq_left (by rw [flenMax]; omega)
  have hread := memReadBytes_memWriteBytes hcap s.mem []
  have hv := vlen_frameSoFar (show 4 ≤ frame.length by omega) hcap [] rest
  rw [List.append_nil] at hread hv
  obtain ⟨r, hdec, hframe, hemit⟩ := exec_rsmEmit_wellFormed (s := frameSoFar s frame rest) h hread hflen
  exact ⟨r, hdec, hframe, (lengthTest_emit (by omega) hv (hflen.trans h.2)).trans hemit⟩

theorem lengthTest_longer (hinv : Inv s) (h : WellFormedFrame s.cfg frame) {more : Bytes} (hmore : more ≠ [])
    (rest : List Input) :
    lengthTest (frameSoFar s (frame ++ more) rest) =
      .next (toIdle (pulse (frameSoFar s (frame ++ more) rest)
        (.overrun (min (frame.length + more.length) flenMax) frame.length))) := by
  obtain ⟨hmin, hmax⟩ := h.length_bounds
  have hv : vlen (frameSoFar s (frame ++ more) rest) = some frame.length := by
    rw [vlen_frameSoFar (by omega) (h.length_le_bufCap hinv), h.2]
    rfl
  have hflen : (frameSoFar s (frame ++ more) rest).flen = min (frame.length + more.length) flenMax := by
    rw [← List.length_append]
    rfl
  have hlt : frame.length < (frameSoFar s (frame ++ more) rest).flen := by
    have := List.length_pos_iff.2 hmore
    rw [hflen, flenMax]
    omega
  rw [lengthTest_overrun (by omega) hv hlt, exec_rsmOverrun_over (by omega) hv hlt, hflen]

end

/-- Settles O16: the chunk is longer than the frame that its first bytes declare. -/
theorem chunkLongerThanItsFrameIsLost : Obligations.ChunkLongerThanItsFrameIsLost := by
  intro s frame more rest hinv hr h hmore hin
  refine ⟨memWriteBytes s.cfg.bufCap s.mem 0 (frame ++ more), ?_⟩
  have hne : frame ++ more ≠ [] := fun hn => hmore (List.append_eq_nil_iff.1 hn).2
  have hsync : ([] ++ (frame ++ more)).head? = some syncMarker := h.head?_append more
  have hstep := step_frameSoFar (s := s) hne hsync (Nat.zero_le _) rest
  rw [frameSoFar_nil hinv hr hin] at hstep
  rw [hstep, List.nil_append, lengthTest_longer hinv h hmore]
  simp only [toIdle, pulse, frameSoFar, hr, flen_of_idle hinv hr, flenMax]

/-! Runs. -/

section
variable {M : Host.Core} {s t : M.State}

theorem run_succ_of_step (h : M.step s = .next t) (k : Nat) : M.run (k + 1) s = M.run k t := by
  rw [Host.Core.run, h]

theorem run_succ_next {k : Nat} (h : M.run (k + 1) s = .next t) : ∃ u, M.step s = .next u ∧ M.run k u = .next t := by
  rw [Host.Core.run] at h
  split at h
  case h_1 u hu => exact ⟨u, hu, h⟩
  case h_2 => cases h
  case h_3 => cases h

theorem run_add {m : Nat} (h : M.run m s = .next t) (n : Nat) : M.run (m + n) s = M.run n t := by
  induction m generalizing s with
  | zero =>
    obtain rfl := Host.Outcome.next.inj h
    rw [Nat.zero_add]
  | succ m ih =>
    obtain ⟨u, hu, hrun⟩ := run_succ_next h
    rw [Nat.add_right_comm, run_succ_of_step hu, ih hrun]

end

/-- A run of the machine begins with its step. -/
theorem run_of_step {s t : State} (h : step s = .next t) (k : Nat) : core.run (k + 1) s = core.run k t :=
  run_succ_of_step (M := core) (s := s) (t := t) h k

/-- A run keeps the invariant, because each step does. -/
theorem run_inv {s t : State} {k : Nat} (h : Inv s) (ht : core.run k s = .next t) : Inv t := by
  induction k generalizing s with
  | zero => exact Host.Outcome.next.inj ht ▸ h
  | succ k ih =>
    obtain ⟨u, hu, hrun⟩ := run_succ_next ht
    exact ih (everyStepKeepsTheInvariant s u h hu) hrun

/-- The step on a chunk of a frame whose bytes before it are the frame-so-far. -/
theorem step_part {s : State} {frame : Bytes} (h : WellFormedFrame s.cfg frame) {p c more : Bytes} (hcut : frame = p ++ c ++ more)
    (hc : c ≠ []) (rest : List Input) :
    step (frameSoFar s p (.chunk c :: rest)) = lengthTest (frameSoFar s (p ++ c) rest) := by
  obtain ⟨-, hmax⟩ := h.length_bounds
  have hne : p ++ c ≠ [] := fun hn => hc (List.append_eq_nil_iff.1 hn).2
  refine step_frameSoFar hc ?_ ?_ rest
  · obtain ⟨hsync, -⟩ := h
    rwa [hcut, List.head?_append_of_ne_nil _ hne] at hsync
  · rw [hcut, List.length_append, List.length_append] at hmax
    rw [flenMax]
    omega

/-- The chunks of a frame but the last wait for it. -/
theorem run_shorter {s : State} {frame : Bytes} (hinv : Inv s) (h : WellFormedFrame s.cfg frame) {more : Bytes} (hmore : more ≠ [])
    (rest : List Input) (chunks : List Bytes) (hne : ∀ c ∈ chunks, c ≠ []) (p : Bytes)
    (hcut : frame = p ++ (chunks.flatten ++ more)) :
    core.run chunks.length (frameSoFar s p (chunks.map .chunk ++ rest)) = .next (frameSoFar s (p ++ chunks.flatten) rest) := by
  induction chunks generalizing p with
  | nil => rw [List.flatten_nil, List.append_nil]; rfl
  | cons c chunks ih =>
    obtain ⟨hc, hne⟩ := List.forall_mem_cons.1 hne
    have hcut' : frame = p ++ c ++ (chunks.flatten ++ more) := by rw [hcut, List.flatten_cons]; simp
    have hstep := (step_part h hcut' hc (chunks.map .chunk ++ rest)).trans
      (lengthTest_shorter hinv h hcut' (fun hn => hmore (List.append_eq_nil_iff.1 hn).2) _)
    have hrun := ih hne (p ++ c) hcut'
    rw [List.append_assoc, ← List.flatten_cons] at hrun
    exact (run_of_step hstep _).trans hrun

/-- Any chunks of a frame that leave at least one out are buffered. -/
theorem run_front {s : State} {frame : Bytes} {front back : List Bytes} {rest : List Input} (hinv : Inv s) (hr : s.rsm = .idle)
    (h : WellFormedFrame s.cfg frame) (hcut : IsCut frame (front ++ back)) (hback : back ≠ [])
    (hin : s.input = (front ++ back).map .chunk ++ rest) :
    core.run front.length s = .next (frameSoFar s front.flatten (back.map .chunk ++ rest)) := by
  obtain ⟨hflat, hne⟩ := hcut
  obtain ⟨c, back, rfl⟩ := List.exists_cons_of_ne_nil hback
  have hmore : (c :: back).flatten ≠ [] :=
    fun hn => hne c (List.mem_append_right _ List.mem_cons_self) (List.flatten_eq_nil_iff.1 hn c List.mem_cons_self)
  have hrun := run_shorter hinv h hmore ((c :: back).map .chunk ++ rest) front (fun x hx => hne x (List.mem_append_left _ hx)) []
    (hflat.symm.trans List.flatten_append)
  rwa [frameSoFar_nil hinv hr (by rw [hin, List.map_append, List.append_assoc])] at hrun

/-- However a well-formed frame is cut into chunks, the run over them emits its record and ends in `Idle`. -/
theorem run_cut {s : State} {frame : Bytes} {chunks : List Bytes} {rest : List Input} (hinv : Inv s) (hr : s.rsm = .idle)
    (h : WellFormedFrame s.cfg frame) (hcut : IsCut frame chunks) (hin : s.input = chunks.map .chunk ++ rest) :
    ∃ r, decodeFrame s.cfg s.reg frame = some r ∧ r.frame = frame ∧
      core.run chunks.length s = .next (afterEmit (frameSoFar s frame rest) r) := by
  have hsome : chunks ≠ [] := by
    rintro rfl
    obtain rfl : [] = frame := hcut.1
    exact absurd h.length_bounds.1 (by decide)
  obtain ⟨front, last, rfl⟩ := (List.eq_nil_or_concat' chunks).resolve_left hsome
  have hfront := run_front hinv hr h hcut (List.cons_ne_nil last []) hin
  obtain ⟨r, hdec, hrec, hemit⟩ := lengthTest_whole hinv h rest
  have hframe : frame = front.flatten ++ last := by rw [← hcut.1]; simp
  have hlast : last ≠ [] := hcut.2 last (List.mem_append_right _ List.mem_cons_self)
  have hstep := step_part (more := []) h (by rw [← hframe, List.append_nil]) hlast rest
  rw [← hframe, hemit] at hstep
  refine ⟨r, hdec, hrec, ?_⟩
  rw [List.length_append, run_add hfront]
  exact run_of_step hstep 0

/-- Settles O18: the chunks but the last are buffered, and the last one completes the frame. -/
theorem chunkingInvariance : Obligations.ChunkingInvariance := by
  intro s frame chunks rest hinv hr h hcut hin
  obtain ⟨r, hdec, hrec, hrun⟩ := run_cut hinv hr h hcut hin
  refine ⟨r, hdec, hrec, fun k hk => ?_, _, hrun, rfl, rfl, rfl, rfl, rfl, rfl, rfl, rfl, rfl⟩
  have hback : chunks.drop k ≠ [] := fun hn => absurd (List.drop_eq_nil_iff.1 hn) (by omega)
  have hfront := run_front (front := chunks.take k) (back := chunks.drop k) (rest := rest) hinv hr h
    (by rwa [List.take_append_drop]) hback (by rwa [List.take_append_drop])
  rw [List.length_take_of_le hk.le] at hfront
  exact ⟨_, hfront, rfl⟩

/-- One byte a chunk is a way to cut a frame. -/
theorem isCut_singletons (frame : Bytes) : IsCut frame (frame.map fun b => [b]) := by
  refine ⟨(List.flatMap_def ..).symm.trans (List.flatMap_singleton' frame), fun c hc => ?_⟩
  obtain ⟨b, -, rfl⟩ := List.mem_map.1 hc
  exact List.cons_ne_nil b []

/-- Settles O19, by induction on the frames: each ends in `Idle` with the invariant, the parameters and the registry as before. -/
theorem byteSerialStreamEmitsEveryFrame : Obligations.ByteSerialStreamEmitsEveryFrame := by
  intro s frames rest hinv hr hwf hin
  induction frames generalizing s with
  | nil => exact ⟨[], rfl, s, rfl, hr, hin, (List.append_nil _).symm, rfl⟩
  | cons frame frames ih =>
    obtain ⟨h, hwf⟩ := List.forall_mem_cons.1 hwf
    obtain ⟨r, hdec, -, hrun⟩ := run_cut (rest := frames.flatten.map (fun b => .chunk [b]) ++ rest) hinv hr h
      (isCut_singletons frame) (by rw [hin]; simp)
    obtain ⟨records, hrecords, t, ht, hidle, hrest, htel, hdiag⟩ := ih _ (run_inv hinv hrun) rfl hwf rfl
    rw [List.length_map] at hrun
    refine ⟨r :: records, ?_, t, ?_, hidle, hrest, ?_, hdiag⟩
    · rw [List.map_cons, List.map_cons, hdec, hrecords]
      rfl
    · rw [List.flatten_cons, List.length_append, run_add hrun, ht]
    · rw [htel, List.flatMap_cons, ← List.append_assoc]
      rfl

/-! One byte at a time. -/

section
variable {s : State} (b : Byte)

/-- Between inputs an open frame is shorter than it declares. -/
theorem flen_lt_vlen (h : Inv s) (hr : s.rsm = .accumulating) (h6 : 6 < s.flen) : ∃ v, vlen s = some v ∧ s.flen < v := by
  have hacc := h.rsm
  simp only [RsmOk, hr] at hacc
  obtain ⟨-, -, -, hshort⟩ := hacc
  exact hshort h6

/-- The buffer's first four bytes stay while a frame is open, so that one byte more cannot pass the length that they declare. -/
theorem storeByte_le_vlen (h : Inv s) (hr : s.rsm = .accumulating) {v : Nat} (hv : vlen (storeChunk s.flen [b] s) = some v) :
    s.flen + 1 ≤ v := by
  obtain ⟨head, -, hdecl⟩ := Option.map_eq_some_iff.1 hv
  have hmin := (vlenOf_bounds s.cfg.lenOrder head).1
  rcases Nat.lt_or_ge 6 s.flen with h6 | h6
  · obtain ⟨v', hv', hlt⟩ := flen_lt_vlen h hr h6
    have hsame : vlen (storeChunk s.flen [b] s) = vlen s := by
      have hread : memReadBytes (storeChunk s.flen [b] s).mem 0 4 = memReadBytes s.mem 0 4 :=
        memReadBytes_congr _ _ _ _ fun k hk => by
          rw [storeChunk_mem, memRead_memWriteBytes, if_neg (by omega)]
      rw [vlen, hread]
      rfl
    obtain rfl := Option.some.inj (hv'.symm.trans (hsame.symm.trans hv))
    exact hlt
  · rw [← hdecl]
    exact (Nat.succ_le_succ h6).trans hmin

/-- A frame-so-far that has not passed its declared length: the length test completes and nothing is put on `DIAG_OUT`. -/
theorem lengthTest_noOverrun (h : Appended s) (hle : s.flen ≤ 65797) (hv : ∀ v, vlen s = some v → s.flen ≤ v) :
    ∃ t, lengthTest s = .next t ∧ t.diagOut = s.diagOut := by
  have hcap := cfgWf_bufCap h.cfg
  have hread (n : Nat) (hn : n ≤ s.flen) : ∃ bs, memReadBytes s.mem 0 n = some bs :=
    memReadBytes_of_isSome _ _ _ fun k hk => h.held _ (by omega) (by omega)
  rcases lengthTest_cases s with ⟨-, heq⟩ | ⟨h6, hnone, -⟩ | ⟨v, h6, hsome, ⟨hlen, heq⟩ | ⟨hlt, -⟩ | ⟨-, heq⟩⟩
  · exact ⟨s, heq, rfl⟩
  · obtain ⟨head, hhead⟩ := hread 4 (by omega)
    rw [vlen, hhead] at hnone
    cases hnone
  · obtain ⟨frame, hframe⟩ := hread v (by omega)
    have hsync : frame.head? = some syncMarker := by
      rw [List.head?_eq_getElem?, ← ((memReadBytes_eq_some _ _ _ _).1 hframe).2 0 (by omega)]
      exact h.sync
    obtain ⟨r, -, -, hemit⟩ := exec_rsmEmit_declared hsome hlen hframe hsync
    exact ⟨_, heq.trans hemit, rfl⟩
  · exact absurd (hv v hsome) (by omega)
  · exact ⟨s, heq, rfl⟩

end

/-- Settles O17: a byte taken in `Idle` is dropped or opens a frame, and one taken in `Accumulating` cannot pass its frame's end. -/
theorem oneByteChunksNeverOverrun : Obligations.OneByteChunksNeverOverrun := by
  intro s b rest hinv hin
  have hc := offeredChunk_eq_some hin
  have htaken := takeInput_inv hinv
  rw [step_chunk hin]
  cases hr : s.rsm with
  | idle =>
    by_cases hb : b = syncMarker
    · subst hb
      rw [exec_rsmStep_sync hc hr, exec_rsmStart_sync hc hr rfl, andThen_next, if_neg (fun hn => hn.2 rfl), List.append_nil]
      exact ⟨_, lengthTest_wait (.inl ((Nat.min_le_left _ _).trans (by decide))), rfl⟩
    · rw [exec_rsmStep_other hc hr hb, exec_rsmDrop_other hc hr rfl hb, if_pos ⟨rfl, hb⟩]
      exact ⟨_, rfl, rfl⟩
  | accumulating =>
    rw [exec_rsmStep_append hc hr, exec_rsmAppend_nonempty hc hr (List.cons_ne_nil b []), andThen_next,
      if_neg (fun hn => nomatch hn.1), List.append_nil]
    have hflen : (storeChunk s.flen [b] (takeInput s)).flen ≤ s.flen + 1 := Nat.min_le_left _ _
    have hmax : s.flen < 65797 := by
      rcases Nat.lt_or_ge 6 s.flen with h6 | h6
      · obtain ⟨v, hv, hlt⟩ := flen_lt_vlen hinv hr h6
        exact hlt.trans_le (vlen_le hv)
      · omega
    exact lengthTest_noOverrun (storeChunk_append_appended htaken hr (List.cons_ne_nil b [])) (by omega)
      fun v hv => hflen.trans (storeByte_le_vlen b htaken hr hv)

end Sys2Proof.Machine
end

section
/-! PROOFS. The operations of the frame decoder (spec/43_esp3_frame.md R160 to R170). -/

namespace Sys2Proof.Machine

/-! Each operation on a `FRAME` that holds what it reads. -/

/-- The bytes that an operation reads are those of the region they cover where `FRAME` holds all of it. -/
theorem eq_region_of_agree {frame front region back d : Bytes} {off : Nat} (hframe : frame = front ++ (region ++ back))
    (hoff : front.length = off) (hlen : d.length = region.length)
    (hagree : ∀ (k : Nat) (b : Byte), k < d.length → frame[off + k]? = some b → d[k]? = some b) : d = region := by
  refine List.ext_getElem hlen fun k hd hr => ?_
  have hheld : frame[off + k]? = some region[k] := by
    rw [hframe, ← hoff, List.getElem?_append_right (Nat.le_add_right _ _), Nat.add_sub_cancel_left, List.getElem?_append_left hr,
      List.getElem?_eq_getElem hr]
  exact Option.some.inj ((List.getElem?_eq_getElem hd).symm.trans (hagree k _ hd hheld))

/-- Settles O20: the six bytes that the two operations read are the first six of `FRAME`. -/
theorem esp3HeaderIsReadAndChecked : Obligations.Esp3HeaderIsReadAndChecked := by
  intro s b0 b1 b2 b3 b4 b5 more hframe
  obtain ⟨hd, hagree, hhdr, hcrc⟩ := exec_esp3_header s
  rw [hframe] at hagree
  have h1 : hd 1 = b1 := hagree 1 b1 rfl
  have h2 : hd 2 = b2 := hagree 2 b2 rfl
  have h3 : hd 3 = b3 := hagree 3 b3 rfl
  have h4 : hd 4 = b4 := hagree 4 b4 rfl
  have h5 : hd 5 = b5 := hagree 5 b5 rfl
  rw [h1, h2, h3, h4, h5] at hhdr hcrc
  exact ⟨hhdr, hcrc⟩

/-- Settles O22: the bytes reported are the data region. -/
theorem esp3OtherIsOpaque : Obligations.Esp3OtherIsOpaque := by
  intro s p header data more hframe hheader hdata
  obtain ⟨d, hlen, hagree, hother⟩ := exec_esp3_other s
  obtain rfl := eq_region_of_agree hframe hheader (hlen.trans hdata.symm) hagree
  exact hother p

/-- Settles O23: the bytes sliced are the optional region. -/
theorem esp3OptReadsTheSignalStrength : Obligations.Esp3OptReadsTheSignalStrength := by
  intro s front opt more hframe hfront hopt
  obtain ⟨o, hlen, hagree, hexec⟩ := exec_esp3_opt s
  obtain rfl := eq_region_of_agree hframe hfront (hlen.trans hopt.symm) hagree
  rw [hfront]
  exact hexec

/-- Settles O24: the bytes checked are the covered ones, and the candidate is the byte behind them. -/
theorem esp3Crc8dChecksDataAndOptional : Obligations.Esp3Crc8dChecksDataAndOptional := by
  intro s header covered more k hframe hheader hcovered
  obtain ⟨d, k', hlen, hagree, hbehind, hexec⟩ := exec_esp3_crc8d s
  obtain rfl := eq_region_of_agree hframe hheader (hlen.trans hcovered.symm) hagree
  obtain rfl := hbehind k (by rw [hframe, ← hheader]; simp)
  exact hexec

/-- `CRC` takes in the sub-frame check unless it was not performed (R170). -/
theorem crcAll_eq (f : Telegram) : crcAll f = (f.crc8hOk && (f.crc8dOk && decide (f.crcsubOk ≠ some false))) := by
  unfold crcAll
  rw [Bool.and_assoc]
  rcases f.crcsubOk with _ | _ | _ <;> rfl

/-- Settles O25: `CRC` is the conjunction of the checks, and the category is that of the record emitted. -/
theorem esp3MergeEmitsTheTwoEvents : Obligations.Esp3MergeEmitsTheTwoEvents := by
  refine fun s => ⟨_, rfl, ?_⟩
  rw [← crcAll_eq]
  rfl

/-! The radio rows and the whole decode. -/

/-- A local operation completes on every state. -/
theorem LocalOp.completes {op : State → Answer} (h : LocalOp op) (s : State) : ∃ t, op s = .next t :=
  let ⟨_, _, hop⟩ := h.runs s
  ⟨_, hop⟩

/-- Settles O21: each row is its radio decoder on the selected data region, and both decoders are local. -/
theorem esp3RadioRowsRunTheirDecoder : Obligations.Esp3RadioRowsRunTheirDecoder := by
  intro s
  obtain ⟨t1, h1⟩ := erp1Decode_local.completes (s.setFields (selectData .erp1 s.fields))
  obtain ⟨t2, h2⟩ := erp2Decode_local.completes (s.setFields (selectData .erp2 s.fields))
  exact ⟨⟨t1, h1, h1⟩, ⟨t2, h2, h2⟩⟩

/-- The step of the packet type is the operation that the packet type selects (R160, R83). -/
theorem esp3Row_eq_exec (p : Byte) (s : State) : esp3Row p s = exec (decodeEsp3 p) s := by
  unfold esp3Row decodeEsp3
  by_cases h2 : p = ptypeErp2
  · rw [if_pos h2, if_neg (by rw [h2]; decide), if_pos h2]
    rfl
  · rw [if_neg h2, if_neg h2]
    split <;> rfl

/-- Settles O26: the definition lists the steps with the test of `OLEN` the other way round, and its steps complete. -/
theorem esp3DecodeRunsItsSevenSteps : Obligations.Esp3DecodeRunsItsSevenSteps := by
  intro s
  obtain ⟨f, q, hrun, -⟩ := execEsp3Decode_runs s
  refine ⟨?_, _, hrun⟩
  show execEsp3Decode s = _
  simp only [execEsp3Decode, esp3Row_eq_exec, ite_not]
  rfl

end Sys2Proof.Machine
end

section
/-! PROOFS. The record of a frame as a function of the parameters, the registry and the frame (spec/43_esp3_frame.md R160), and what
it says of opaque records (R165). -/

namespace Sys2Proof.Machine

/-! What comes before the end of a radio decode: the registers when it gets there, and the reason if it is turned away. -/

/-- `ERP1.DECODE` up to the look-up (45_erp1.md R201 to R207). -/
def erp1Prepare (c : Config) (f : Telegram) : Telegram × Option Reason :=
  let g := { f with crcsubOk := none }
  if 7 ≤ (dataBytes f).length then
    let sliced := erp1Slices (dataBytes f) g
    (setTeachIn (erp1TeachIn c (byteAt (dataBytes f) 0) (dlBytes sliced)) sliced, none)
  else (g, some .erp1Short)

/-- What `ERP2.SUBCRC` writes (44_erp2.md R181). -/
def subcrcFields (c : Config) (f : Telegram) : Telegram :=
  { f with
    crcsubOk := some (subCrcOk c.crc8Table (dataBytes f))
    reason := withReason (if subCrcOk c.crc8Table (dataBytes f) then none else some .subCrc) f.reason }

/-- What `ERP2.DECODE` writes from the header byte, and what an empty region leaves of it (44_erp2.md R182, R183, R195). -/
def erp2Header (c : Config) (f : Telegram) : Telegram :=
  if (dataBytes f).length = 0 then { f with ac := none, eha := none, tt := none, rorg := none }
  else erp2Rorg c (headerTt (byteAt (dataBytes f) 0)) (headerFields f)

/-- The guards of `ERP2.DECODE` in their order: the reason that turns the region away, or the row of its Address Control
(60_exceptions.md R274). -/
def erp2Guard (c : Config) (d : Bytes) : Except Reason AcRow :=
  if d.length = 0 then .error .erp2Short
  else
    match acLookup c (headerAc (byteAt d 0)) with
    | none => .error .erp2AcReserved
    | some row =>
      if headerEha (byteAt d 0) = 1 then .error .erp2Eha
      else if d.length < acNeed row then .error .erp2Short
      else .ok row

/-- The slices of `ERP2.DECODE` (44_erp2.md R184 to R186). -/
def erp2Slices (row : AcRow) (f : Telegram) : Telegram := erp2Dl (dataBytes f).length row (erp2Ids (dataBytes f) row f)

/-- `ERP2.DECODE` on a region that its guards let pass: the slices and the Teach-In of the Telegram Type (44_erp2.md R184 to R188). -/
def erp2Sliced (c : Config) (row : AcRow) (f : Telegram) : Telegram :=
  let tt := headerTt (byteAt (dataBytes f) 0)
  setTeachIn (erp2TeachIn c tt (dlBytes (erp2Slices row f))) (erp2Rorg c tt (erp2Slices row f))

/-- `ERP2.DECODE` from its guards up to the look-up. -/
def erp2Rest (c : Config) (f : Telegram) : Telegram × Option Reason :=
  match erp2Guard c (dataBytes f) with
  | .error w => (f, some w)
  | .ok row => (erp2Sliced c row f, none)

/-- `ERP2.DECODE` up to the look-up. -/
def erp2Prepare (c : Config) (f : Telegram) : Telegram × Option Reason := erp2Rest c (erp2Header c (subcrcFields c f))

/-- The step of the packet type up to the look-up (43_esp3_frame.md R163, R164). -/
def rowPrepare (c : Config) (f : Telegram) : Telegram × Option Reason :=
  if f.ptype = ptypeErp2 then erp2Prepare c (selectData .erp2 f)
  else if f.ptype = ptypeErp1 then erp1Prepare c (selectData .erp1 f)
  else ({ selectData .other f with crcsubOk := none }, some .ptypeUnknown)

/-- How a radio decode ends: with the opaque result, or with the look-up of its originator and the message. -/
def endRadio (c : Config) (reg : List RegDevice) (p : Telegram × Option Reason) : Telegram :=
  match p.2 with
  | some w => opaqueResult w p.1
  | none => finishRadio c (p.1.oid.getD 0) (regLookup reg (p.1.oid.getD 0)) p.1

theorem endRadio_turnedAway {c : Config} {reg : List RegDevice} {p : Telegram × Option Reason} {w : Reason} (h : p.2 = some w) :
    endRadio c reg p = opaqueResult w p.1 := by
  rw [endRadio, h]

theorem endRadio_sliced {c : Config} {reg : List RegDevice} {p : Telegram × Option Reason} (h : p.2 = none) :
    endRadio c reg p = finishRadio c (p.1.oid.getD 0) (regLookup reg (p.1.oid.getD 0)) p.1 := by
  rw [endRadio, h]

/-- The registers after the optional region, the data CRC and the conjunction of the checks (43_esp3_frame.md R166 to R170). -/
def closeFields (c : Config) (f : Telegram) : Telegram :=
  let covered := frameBytes f.frame 6 (f.dlen.toNat + f.olen.toNat)
  let candidate := frameByte f.frame (6 + (f.dlen.toNat + f.olen.toNat))
  let region := frameBytes f.frame (6 + f.dlen.toNat) f.olen.toNat
  let g := { f with
    opt := ⟨6 + f.dlen.toNat, f.olen.toNat⟩
    dbm := dbmOf c.optTable f.ptype region
    crc8d := candidate
    crc8dOk := decide (crc8 c.crc8Table covered = candidate)
    reason := withReason (if crc8 c.crc8Table covered = candidate then none else some .dataCrc) f.reason }
  { g with crc := crcAll g }

/-- The registers after the header of a frame has been read and checked (43_esp3_frame.md R161, R162). -/
def startFields (c : Config) (frame : Bytes) : Telegram := crc8hFields c (hdrFields c { blankTelegram with frame := frame })

/-- The record of a frame. -/
def recordOf (c : Config) (reg : List RegDevice) (frame : Bytes) : Telegram :=
  closeFields c (endRadio c reg (rowPrepare c (startFields c frame)))

/-! The operations write these registers. -/

theorem erp2Guard_empty (c : Config) {d : Bytes} (h : d.length = 0) : erp2Guard c d = .error .erp2Short := if_pos h

theorem erp2Rest_error {c : Config} {f : Telegram} {w : Reason} (h : erp2Guard c (dataBytes f) = .error w) :
    erp2Rest c f = (f, some w) := by
  rw [erp2Rest, h]

theorem execErp2Subcrc_eq (s : State) : execErp2Subcrc s = .next (s.setFields (subcrcFields s.cfg s.fields)) := by
  simp only [execErp2Subcrc, ite_degrade_eq, subcrcFields]

theorem execErp1Decode_fields (s : State) :
    ∃ q, execErp1Decode s = .next (localNext (endRadio s.cfg s.reg (erp1Prepare s.cfg s.fields)) q s) := by
  by_cases h : 7 ≤ (dataBytes s.fields).length
  · obtain ⟨f, g, id, hf, hg, hid, heq⟩ := execErp1Decode_long h
    refine ⟨[id], ?_⟩
    rw [heq, hid, hg, hf, erp1Prepare, if_pos h]
    rfl
  · refine ⟨[], ?_⟩
    rw [execErp1Decode_short h, erp1Prepare, if_neg h, setFields_eq_localNext]
    rfl

/-- Where the Address Control read is that of the region, `ERP2.SHORT` turns a region away that its row does not fit. -/
theorem execErp2Short_short {s : State} {row : AcRow} {ac : BitVec 3} (hne : (dataBytes s.fields).length ≠ 0)
    (hac : s.fields.ac = some ac) (hrow : acLookup s.cfg ac = some row) (hlen : (dataBytes s.fields).length < acNeed row) :
    execErp2Short s = .next (s.setFields (opaqueResult .erp2Short s.fields)) := by
  have hshort : erp2IsShort s = true := by
    unfold erp2IsShort
    rw [hac, Option.bind_some, hrow]
    exact decide_eq_true hlen
  rw [execErp2Short_eq, if_neg hne, if_pos hshort]

theorem erp2Rest_ok {c : Config} {f : Telegram} {row : AcRow} (h : erp2Guard c (dataBytes f) = .ok row) :
    erp2Rest c f = (erp2Sliced c row f, none) := by
  rw [erp2Rest, h]

/-- A region that `ERP2.DECODE` turns away ends in the opaque result. -/
theorem turnedAway_fields {c : Config} (reg : List RegDevice) {s : State} {w : Reason}
    (h : erp2Guard c (dataBytes s.fields) = .error w) :
    s.setFields (opaqueResult w s.fields) = localNext (endRadio c reg (erp2Rest c s.fields)) [] s := by
  rw [erp2Rest_error h, endRadio_turnedAway rfl, setFields_eq_localNext]

/-- The Telegram Type operation and the end of the radio decode, once Data_DL is sliced. -/
theorem radioTail_erp2TtRow (tt : BitVec 4) {s : State} (hdl : s.fields.dl ≠ none) :
    radioTail (erp2TtRow tt) s =
      .next (localNext
        (endRadio s.cfg s.reg (setTeachIn (erp2TeachIn s.cfg tt (dlBytes s.fields)) (erp2Rorg s.cfg tt s.fields), none))
        [s.fields.oid.getD 0] s) := by
  rw [radioTail_setFields (erp2TtRow_eq tt), askRegistry_fields, if_neg hdl, askRegistry_cfg, endRadio_sliced rfl]
  rfl

theorem erp2Body_fields {s : State} (hne : (dataBytes s.fields).length ≠ 0)
    (hac : s.fields.ac = some (headerAc (byteAt (dataBytes s.fields) 0))) :
    ∃ q, erp2Body (byteAt (dataBytes s.fields) 0) s = .next (localNext (endRadio s.cfg s.reg (erp2Rest s.cfg s.fields)) q s) := by
  have hguard : erp2Guard s.cfg (dataBytes s.fields) = _ := if_neg hne
  unfold erp2Body
  cases hrow : acLookup s.cfg (headerAc (byteAt (dataBytes s.fields) 0)) with
  | none =>
    rw [hrow] at hguard
    exact ⟨[], by rw [erp2AcRow_eq, hrow, ← turnedAway_fields s.reg hguard]⟩
  | some row =>
    rw [hrow] at hguard
    dsimp only at hguard ⊢
    split at hguard
    case isTrue heha => exact ⟨[], by rw [if_pos heha, ← turnedAway_fields s.reg hguard]; rfl⟩
    case isFalse heha =>
      rw [if_neg heha]
      split at hguard
      case isTrue hlen =>
        exact ⟨[], by rw [if_pos hlen, execErp2Short_short hne hac hrow hlen, ← turnedAway_fields s.reg hguard]⟩
      case isFalse hlen =>
        have htail := radioTail_erp2TtRow (headerTt (byteAt (dataBytes s.fields) 0))
          (s := s.setFields (erp2Slices row s.fields)) (Option.some_ne_none _)
        refine ⟨[(erp2Slices row s.fields).oid.getD 0], ?_⟩
        rw [if_neg hlen, erp2AcRow_eq, hrow]
        dsimp only
        rw [if_pos (not_lt.1 hlen), andThen_next, erp2Rest_ok hguard]
        exact htail

theorem erp2Header_empty (c : Config) {f : Telegram} (h : (dataBytes f).length = 0) :
    erp2Header c f = { f with ac := none, eha := none, tt := none, rorg := none } := if_pos h

theorem erp2Header_nonempty (c : Config) {f : Telegram} (h : (dataBytes f).length ≠ 0) :
    erp2Header c f = erp2Rorg c (headerTt (byteAt (dataBytes f) 0)) (headerFields f) := if_neg h

theorem dataBytes_erp2Header (c : Config) (f : Telegram) : dataBytes (erp2Header c f) = dataBytes f := by
  unfold erp2Header
  split <;> rfl

theorem execErp2Decode_fields (s : State) :
    ∃ q, execErp2Decode s = .next (localNext (endRadio s.cfg s.reg (erp2Prepare s.cfg s.fields)) q s) := by
  unfold execErp2Decode erp2Prepare
  rw [execErp2Subcrc_eq, andThen_next]
  generalize subcrcFields s.cfg s.fields = f
  by_cases h : (dataBytes f).length = 0
  · refine ⟨[], ?_⟩
    rw [if_pos (show (dataBytes (s.setFields f).fields).length = 0 from h), execErp2Short_eq,
      if_pos (show (dataBytes (s.setFields f).fields).length = 0 from h),
      erp2Rest_error (erp2Guard_empty _ (by rw [dataBytes_erp2Header]; exact h)), erp2Header_empty _ h, setFields_setFields,
      setFields_eq_localNext]
    rfl
  · rw [if_neg (show ¬(dataBytes (s.setFields f).fields).length = 0 from h),
      execErp2Hdrbyte_nonempty (s := s.setFields f) (Nat.one_le_iff_ne_zero.2 h), erp2Header_nonempty _ h]
    exact erp2Body_fields (s := s.setFields (erp2Rorg s.cfg (headerTt (byteAt (dataBytes f) 0)) (headerFields f))) h rfl

theorem esp3Row_fields (s : State) :
    ∃ q, esp3Row s.fields.ptype s = .next (localNext (endRadio s.cfg s.reg (rowPrepare s.cfg s.fields)) q s) := by
  unfold esp3Row rowPrepare
  split
  · exact execErp2Decode_fields (s.setFields (selectData .erp2 s.fields))
  · split
    · exact execErp1Decode_fields (s.setFields (selectData .erp1 s.fields))
    · exact ⟨[], congrArg Host.Outcome.next (setFields_eq_localNext s _)⟩

/-- An empty optional region gives no signal strength, so `ESP3.OPT` would write what `ESP3.DECODE` writes in its place (R168). -/
theorem optFields_empty (c : Config) {f : Telegram} (h : f.olen = 0) :
    optFields c f = { f with opt := ⟨6 + f.dlen.toNat, 0⟩, dbm := none } := by
  have hlen : f.olen.toNat = 0 := by rw [h]; rfl
  have hdbm : dbmOf c.optTable f.ptype (frameBytes f.frame (6 + f.dlen.toNat) f.olen.toNat) = none := by
    rw [hlen, frameBytes, dbmOf_eq]
    simp
  rw [← hdbm, ← hlen]
  rfl

/-- The steps of `ESP3.DECODE` after the packet type's (R166 to R170). -/
theorem closeFields_eq (s : State) :
    ∃ u, andThen (if s.fields.olen ≠ 0 then execEsp3Opt s
        else .next (s.setFields { s.fields with opt := ⟨6 + s.fields.dlen.toNat, 0⟩, dbm := none }))
      (fun t => andThen (execEsp3Crc8d t) execEsp3Merge) = .next u ∧ u.fields = closeFields s.cfg s.fields := by
  have hopt : (if s.fields.olen ≠ 0 then execEsp3Opt s
      else .next (s.setFields { s.fields with opt := ⟨6 + s.fields.dlen.toNat, 0⟩, dbm := none })) = execEsp3Opt s := by
    split
    · rfl
    · rename_i h
      rw [execEsp3Opt_eq, optFields_empty s.cfg (not_not.1 h)]
  rw [hopt, execEsp3Opt_eq, andThen_next, execEsp3Crc8d_eq, andThen_next, crc8dFields_eq]
  exact ⟨_, rfl, rfl⟩

theorem execEsp3Decode_fields (s : State) :
    ∃ u, execEsp3Decode s = .next u ∧
      u.fields = closeFields s.cfg (endRadio s.cfg s.reg (rowPrepare s.cfg (crc8hFields s.cfg (hdrFields s.cfg s.fields)))) := by
  obtain ⟨q, hrow⟩ := esp3Row_fields (s.setFields (crc8hFields s.cfg (hdrFields s.cfg s.fields)))
  obtain ⟨u, hu, hfields⟩ := closeFields_eq (localNext
    (endRadio s.cfg s.reg (rowPrepare s.cfg (crc8hFields s.cfg (hdrFields s.cfg s.fields)))) q
    (s.setFields (crc8hFields s.cfg (hdrFields s.cfg s.fields))))
  refine ⟨u, ?_, hfields⟩
  rw [setFields_fields, setFields_cfg, setFields_reg] at hrow
  simp only [execEsp3Decode, execEsp3Hdr_eq, execEsp3Crc8h_eq, andThen_next, setFields_setFields, setFields_fields, setFields_cfg,
    hrow]
  exact hu

/-- `DecodeFrame`, written out. -/
theorem decodeFrame_eq (cfg : Config) (reg : List RegDevice) (frame : Bytes) :
    decodeFrame cfg reg frame = if frameOk cfg frame then some (recordOf cfg reg frame) else none := by
  obtain ⟨u, hrun, hfields⟩ := execEsp3Decode_fields
    { State.reset with cfg := cfg, reg := reg, fields := { blankTelegram with frame := frame } }
  unfold decodeFrame
  rw [hrun]
  dsimp only
  rw [hfields]
  rfl

/-! What a radio decode has written when it comes to its end. -/

/-- The registers that name a device or come from slices of a telegram. -/
def deviceRegisters (f : Telegram) :=
  (f.oid, f.oidw, f.did, f.dl, f.dev, f.ti, f.eep, f.manuf, f.status, f.rpt)

/-- Data_DL is a part of the data region. -/
def DlInData (f : Telegram) : Prop := ∃ a m, f.dl = some ⟨f.data.off + a, m⟩ ∧ a + m ≤ f.data.len

/-- The registers `f` have been taken to the end `p` of a radio decode: where the region was turned away no register of a device has
been written, where it was sliced Data_DL lies inside. -/
structure Prepared (f : Telegram) (p : Telegram × Option Reason) : Prop where
  header : headerOf p.1 = headerOf f
  isOpaque : p.1.isOpaque = f.isOpaque
  turnedAway : ∀ w, p.2 = some w → w ≠ .hdrCrc ∧ deviceRegisters p.1 = deviceRegisters f
  sliced : p.2 = none → DlInData p.1

theorem prepared_turnedAway {f g : Telegram} {w : Reason} (hheader : headerOf g = headerOf f) (hopaque : g.isOpaque = f.isOpaque)
    (hw : w ≠ .hdrCrc) (hdevice : deviceRegisters g = deviceRegisters f) : Prepared f (g, some w) where
  header := hheader
  isOpaque := hopaque
  turnedAway _ hw' := Option.some.inj hw' ▸ ⟨hw, hdevice⟩
  sliced h := absurd h (Option.some_ne_none w)

theorem prepared_sliced {f g : Telegram} (hheader : headerOf g = headerOf f) (hopaque : g.isOpaque = f.isOpaque)
    (hdl : DlInData g) : Prepared f (g, none) where
  header := hheader
  isOpaque := hopaque
  turnedAway w hw := absurd hw.symm (Option.some_ne_none w)
  sliced _ := hdl

theorem dlInData_erp1Slices {f : Telegram} (h : 7 ≤ (dataBytes f).length) : DlInData (erp1Slices (dataBytes f) f) := by
  have hlen := dataBytes_length f
  refine ⟨1, (dataBytes f).length - 6, rfl, ?_⟩
  show 1 + ((dataBytes f).length - 6) ≤ f.data.len
  omega

theorem dlInData_erp2Slices {f : Telegram} {row : AcRow} (h : acNeed row ≤ (dataBytes f).length) :
    DlInData (erp2Slices row f) := by
  have hlen := dataBytes_length f
  unfold acNeed at h
  refine ⟨_, _, rfl, ?_⟩
  show 1 + widthBytes row.width + didBytes row + ((dataBytes f).length - 1 - (1 + widthBytes row.width + didBytes row)) ≤ f.data.len
  omega

theorem prepared_erp1Prepare (c : Config) (f : Telegram) : Prepared f (erp1Prepare c f) := by
  unfold erp1Prepare
  dsimp only
  split
  case isTrue h => exact prepared_sliced rfl rfl (dlInData_erp1Slices (f := { f with crcsubOk := none }) h)
  case isFalse => exact prepared_turnedAway rfl rfl (by decide) rfl

/-- The guards of `ERP2.DECODE` let a region pass that holds what its row needs, and record no header CRC. -/
theorem erp2Guard_cases (c : Config) (d : Bytes) :
    (∃ w, erp2Guard c d = .error w ∧ w ≠ .hdrCrc) ∨ ∃ row, erp2Guard c d = .ok row ∧ acNeed row ≤ d.length := by
  unfold erp2Guard
  split
  · exact .inl ⟨_, rfl, by decide⟩
  · cases acLookup c (headerAc (byteAt d 0)) with
    | none => exact .inl ⟨_, rfl, by decide⟩
    | some row =>
      dsimp only
      split
      · exact .inl ⟨_, rfl, by decide⟩
      · split
        case isTrue => exact .inl ⟨_, rfl, by decide⟩
        case isFalse hlen => exact .inr ⟨row, rfl, not_lt.1 hlen⟩

theorem headerOf_erp2Sliced (c : Config) (row : AcRow) (f : Telegram) : headerOf (erp2Sliced c row f) = headerOf f := by
  unfold erp2Sliced erp2Slices
  simp

theorem isOpaque_erp2Sliced (c : Config) (row : AcRow) (f : Telegram) : (erp2Sliced c row f).isOpaque = f.isOpaque := by
  unfold erp2Sliced erp2Slices
  rfl

theorem prepared_erp2Rest (c : Config) (f : Telegram) : Prepared f (erp2Rest c f) := by
  rcases erp2Guard_cases c (dataBytes f) with ⟨w, hguard, hw⟩ | ⟨row, hguard, hlen⟩
  · rw [erp2Rest_error hguard]
    exact prepared_turnedAway rfl rfl hw rfl
  · rw [erp2Rest_ok hguard]
    exact prepared_sliced (headerOf_erp2Sliced c row f) (isOpaque_erp2Sliced c row f) (dlInData_erp2Slices hlen)

/-- Registers that differ in none that a radio decode takes over are as good to start from. -/
theorem Prepared.congr {f g : Telegram} {p : Telegram × Option Reason} (h : Prepared g p) (hheader : headerOf g = headerOf f)
    (hopaque : g.isOpaque = f.isOpaque) (hdevice : deviceRegisters g = deviceRegisters f) : Prepared f p where
  header := h.header.trans hheader
  isOpaque := h.isOpaque.trans hopaque
  turnedAway w hw := ⟨(h.turnedAway w hw).1, (h.turnedAway w hw).2.trans hdevice⟩
  sliced := h.sliced

theorem headerOf_subcrcFields (c : Config) (f : Telegram) : headerOf (subcrcFields c f) = headerOf f := by
  unfold subcrcFields
  rfl

theorem headerOf_erp2Header (c : Config) (f : Telegram) : headerOf (erp2Header c f) = headerOf f := by
  unfold erp2Header headerFields
  split <;> rfl

theorem prepared_erp2Prepare (c : Config) (f : Telegram) : Prepared f (erp2Prepare c f) := by
  refine (prepared_erp2Rest c _).congr ((headerOf_erp2Header c _).trans (headerOf_subcrcFields c f)) ?_ ?_
  all_goals
    unfold erp2Header
    split <;> unfold subcrcFields <;> rfl

/-- The step of the packet type begins on the selected data region. -/
theorem prepared_rowPrepare (c : Config) (f : Telegram) : ∃ k, Prepared (selectData k f) (rowPrepare c f) := by
  unfold rowPrepare
  split
  · exact ⟨.erp2, prepared_erp2Prepare c _⟩
  · split
    · exact ⟨.erp1, prepared_erp1Prepare c _⟩
    · exact ⟨.other, prepared_turnedAway rfl rfl (by decide) rfl⟩

theorem isOpaque_payloadMessage (c : Config) (f : Telegram) : (payloadMessage c f).isOpaque = f.isOpaque := by
  cases h : f.ti with
  | some ti => rw [payloadMessage_teachIn c h]
  | none => rw [payloadMessage_dispatch c h]

theorem isOpaque_finishRadio (c : Config) (id : Id48) (found : Option RegDevice) (f : Telegram) :
    (finishRadio c id found f).isOpaque = f.isOpaque :=
  isOpaque_payloadMessage c (resolveEep found f)

theorem startFields_eq (c : Config) (frame : Bytes) :
    startFields c frame =
      { blankTelegram with
        frame := frame
        dlen := (hdrFields c { blankTelegram with frame := frame }).dlen
        olen := frameByte frame 3
        ptype := frameByte frame 4
        crc8h := frameByte frame 5
        crc8hOk := decide (crc8 c.crc8Table (frameBytes frame 1 4) = frameByte frame 5)
        reason := if crc8 c.crc8Table (frameBytes frame 1 4) = frameByte frame 5 then [] else [.hdrCrc] } := by
  have hreason (p : Prop) [Decidable p] :
      withReason (if p then none else some Reason.hdrCrc) [] = if p then [] else [.hdrCrc] := by
    split <;> rfl
  unfold startFields
  rw [crc8hFields_eq, ← hreason]
  rfl

theorem isOpaque_startFields (c : Config) (frame : Bytes) : (startFields c frame).isOpaque = false := by
  rw [startFields_eq]
  rfl

theorem deviceRegisters_startFields (c : Config) (frame : Bytes) :
    deviceRegisters (startFields c frame) = deviceRegisters blankTelegram := by
  rw [startFields_eq]
  rfl

theorem isOpaque_closeFields (c : Config) (f : Telegram) : (closeFields c f).isOpaque = f.isOpaque := rfl

/-- An opaque record is the opaque result over registers that name no device (43_esp3_frame.md R165). -/
theorem recordOf_opaque {cfg : Config} {reg : List RegDevice} {frame : Bytes} (h : (recordOf cfg reg frame).isOpaque = true) :
    ∃ w g, recordOf cfg reg frame = closeFields cfg (opaqueResult w g) ∧ deviceRegisters g = deviceRegisters blankTelegram := by
  obtain ⟨k, hprep⟩ := prepared_rowPrepare cfg (startFields cfg frame)
  unfold recordOf at h ⊢
  cases hend : (rowPrepare cfg (startFields cfg frame)).2 with
  | some w =>
    exact ⟨w, _, by rw [endRadio_turnedAway hend],
      (hprep.turnedAway w hend).2.trans (deviceRegisters_startFields cfg frame)⟩
  | none =>
    have hclear := hprep.isOpaque.trans (isOpaque_startFields cfg frame)
    rw [isOpaque_closeFields, endRadio_sliced hend, isOpaque_finishRadio, hclear] at h
    cases h

/-- Settles O56: the opaque result is written over registers that are still blank, and what comes after it keeps them. -/
theorem opaqueRecordsAreUnknown : Obligations.OpaqueRecordsAreUnknown := by
  intro cfg reg frame r hdec hopaque
  rw [decodeFrame_eq] at hdec
  split at hdec
  case isFalse => cases hdec
  case isTrue =>
    obtain rfl := Option.some.inj hdec
    obtain ⟨w, g, hrecord, hdevice⟩ := recordOf_opaque hopaque
    rw [hrecord]
    simp only [deviceRegisters, Prod.mk.injEq] at hdevice
    obtain ⟨hoid, hoidw, hdid, hdl, hdev, hti, heep, hmanuf, hstatus, hrpt⟩ := hdevice
    exact ⟨rfl, hoid, hoidw, hdid, hdl, hdev, hti, heep, hmanuf, hstatus, hrpt, rfl⟩

end Sys2Proof.Machine
end

section
/-! PROOFS. The header CRC byte of a frame changes its own check only (spec/43_esp3_frame.md R162, spec/60_exceptions.md R263). -/

namespace Sys2Proof.Machine

/-! Two frames that differ in the header CRC byte. -/

/-- Frames of the same length with the same bytes, byte 5 excepted. -/
structure SameButByte5 (frame frame' : Bytes) : Prop where
  length : frame'.length = frame.length
  byte : ∀ i, i ≠ 5 → frame'[i]? = frame[i]?

theorem sameButByte5_append {front : Bytes} (more : Bytes) (b b' : Byte) (h : front.length = 5) :
    SameButByte5 (front ++ b :: more) (front ++ b' :: more) where
  length := by simp
  byte i hi := by
    rcases Nat.lt_or_gt_of_ne hi with hlt | hgt
    · rw [List.getElem?_append_left (by omega), List.getElem?_append_left (by omega)]
    · obtain ⟨k, hk⟩ : ∃ k, i - front.length = k + 1 := ⟨i - 6, by omega⟩
      rw [List.getElem?_append_right (by omega), List.getElem?_append_right (by omega), hk, List.getElem?_cons_succ,
        List.getElem?_cons_succ]

section
variable {frame frame' : Bytes} (h : SameButByte5 frame frame')
include h

theorem SameButByte5.byteAt_eq {i : Nat} (hi : i ≠ 5) : byteAt frame' i = byteAt frame i := by
  simp only [byteAt, List.getD_eq_getElem?_getD, h.byte i hi]

theorem SameButByte5.frameOk_eq (cfg : Config) : frameOk cfg frame' = frameOk cfg frame := by
  have h0 : byteAt frame' 0 = byteAt frame 0 := h.byteAt_eq (by decide)
  have h1 : byteAt frame' 1 = byteAt frame 1 := h.byteAt_eq (by decide)
  have h2 : byteAt frame' (1 + 1) = byteAt frame (1 + 1) := h.byteAt_eq (by decide)
  have h3 : byteAt frame' 3 = byteAt frame 3 := h.byteAt_eq (by decide)
  have hlen : bfU16 cfg.lenOrder frame' 1 = bfU16 cfg.lenOrder frame 1 := by
    unfold bfU16
    rw [h1, h2]
  unfold frameOk vlenOf
  rw [h.length, h0, h3, hlen]

theorem SameButByte5.frameByte_eq {i : Nat} (hi : i ≠ 5) (hlt : i < frame.length) : frameByte frame' i = frameByte frame i := by
  have hget := List.getElem?_eq_getElem hlt
  rw [frameByte_of_getElem? hget, frameByte_of_getElem? ((h.byte i hi).trans hget)]

theorem SameButByte5.frameBytes_eq {off n : Nat} (hlt : off + n ≤ frame.length) (hoff : off + n ≤ 5 ∨ 6 ≤ off) :
    frameBytes frame' off n = frameBytes frame off n := by
  induction n generalizing off with
  | zero => rfl
  | succ n ih => rw [frameBytes, frameBytes, h.frameByte_eq (by omega) (by omega), ih (by omega) (by omega)]

end

/-! Registers with another frame, header CRC and check of it. -/

/-- A frame, its header CRC byte and whether that is right. -/
structure HeaderCheck where
  frame : Bytes
  crc : Byte
  ok : Bool

/-- The header check of a frame (43_esp3_frame.md R162). -/
def headerCheckOf (c : Config) (frame : Bytes) : HeaderCheck :=
  ⟨frame, frameByte frame 5, decide (crc8 c.crc8Table (frameBytes frame 1 4) = frameByte frame 5)⟩

/-- The reasons with `HDR_CRC`, which stands first (60_exceptions.md R274), present exactly where the check failed. -/
def HeaderCheck.putReason (x : HeaderCheck) (rs : List Reason) : List Reason :=
  (if x.ok then [] else [.hdrCrc]) ++ rs.filter (fun q => decide (q ≠ .hdrCrc))

/-- The registers with this frame and header check. -/
def HeaderCheck.put (x : HeaderCheck) (f : Telegram) : Telegram :=
  { f with frame := x.frame, crc8h := x.crc, crc8hOk := x.ok, reason := x.putReason f.reason }

variable (x : HeaderCheck)

theorem HeaderCheck.mem_putReason {q : Reason} (hq : q ≠ .hdrCrc) (rs : List Reason) : q ∈ x.putReason rs ↔ q ∈ rs := by
  unfold HeaderCheck.putReason
  rw [List.mem_append, List.mem_filter, decide_eq_true_eq]
  refine ⟨fun h => h.elim (fun h => ?_) And.left, fun h => .inr ⟨h, hq⟩⟩
  split at h
  · cases h
  · exact absurd (List.mem_singleton.1 h) hq

/-- Recording another reason commutes with the header check. -/
theorem HeaderCheck.withReason_putReason {why : Option Reason} (hwhy : why ≠ some .hdrCrc) (rs : List Reason) :
    withReason why (x.putReason rs) = x.putReason (withReason why rs) := by
  cases why with
  | none => rfl
  | some q =>
    have hq : q ≠ .hdrCrc := fun h => hwhy (congrArg some h)
    have hkeep : [q].filter (fun q => decide (q ≠ .hdrCrc)) = [q] := by simp [hq]
    by_cases hmem : q ∈ rs
    · rw [withReason, if_pos ((x.mem_putReason hq rs).2 hmem), withReason, if_pos hmem]
    · rw [withReason, if_neg (fun h => hmem ((x.mem_putReason hq rs).1 h)), withReason, if_neg hmem, HeaderCheck.putReason,
        HeaderCheck.putReason, List.filter_append, List.append_assoc, hkeep]

/-! The radio decoders do not read what is put. -/

/-- Whether the data region stays the same is a matter of the frame and the slice. -/
theorem HeaderCheck.dataBytes_put_congr {f g : Telegram} (hheader : headerOf g = headerOf f)
    (hdata : dataBytes (x.put f) = dataBytes f) : dataBytes (x.put g) = dataBytes g := by
  have hslice : g.data = f.data := by
    simp only [headerOf, Prod.mk.injEq] at hheader
    tauto
  rw [dataBytes_congr g f hheader, ← hdata]
  unfold dataBytes HeaderCheck.put
  dsimp only
  rw [hslice]
  rfl

theorem opaqueResult_eq (w : Reason) (f : Telegram) :
    opaqueResult w f =
      { f with
        isOpaque := true
        report := unknownReport (dataBytes f)
        learn := false
        known := false
        reason := withReason (some w) f.reason } := rfl

theorem HeaderCheck.opaqueResult_put {w : Reason} {f : Telegram} (hw : w ≠ .hdrCrc) (hdata : dataBytes (x.put f) = dataBytes f) :
    opaqueResult w (x.put f) = x.put (opaqueResult w f) := by
  have hreason := x.withReason_putReason (why := some w) (fun h => hw (Option.some.inj h)) f.reason
  rw [opaqueResult_eq, opaqueResult_eq, hdata]
  unfold HeaderCheck.put
  rw [← hreason]

theorem dispatch_reason_ne (cfg : Config) (e : Option Eep) (p : Bytes) : (dispatch cfg e p).2 ≠ some .hdrCrc := by
  rcases dispatch_cases cfg e p with ⟨-, h⟩ | ⟨_, -, -, h⟩ | ⟨_, _, -, -, -, h⟩ | ⟨_, _, -, -, -, h⟩
  all_goals
    rw [h]
    rintro ⟨⟩

theorem HeaderCheck.payloadMessage_put (cfg : Config) {f : Telegram} (hdl : dlBytes (x.put f) = dlBytes f) :
    payloadMessage cfg (x.put f) = x.put (payloadMessage cfg f) := by
  cases hti : f.ti with
  | some ti => rw [payloadMessage_teachIn cfg hti, payloadMessage_teachIn cfg (f := x.put f) hti, hdl]; rfl
  | none =>
    have hreason := x.withReason_putReason (dispatch_reason_ne cfg f.eep (dlBytes f)) f.reason
    rw [payloadMessage_dispatch cfg hti, payloadMessage_dispatch cfg (f := x.put f) hti, hdl]
    unfold HeaderCheck.put
    rw [← hreason]

theorem HeaderCheck.finishRadio_put (cfg : Config) (id : Id48) (found : Option RegDevice) {f : Telegram}
    (hdl : dlBytes (x.put f) = dlBytes f) : finishRadio cfg id found (x.put f) = x.put (finishRadio cfg id found f) := by
  have hmessage : payloadMessage cfg (resolveEep found (x.put f)) = x.put (payloadMessage cfg (resolveEep found f)) :=
    x.payloadMessage_put cfg (f := resolveEep found f) hdl
  unfold finishRadio
  rw [hmessage]
  rfl

/-- Data_DL as a slice of the data region. -/
theorem dlBytes_eq_bfSlice {f : Telegram} {a m : Nat} (hdl : f.dl = some ⟨f.data.off + a, m⟩) (hlen : a + m ≤ f.data.len) :
    dlBytes f = bfSlice (dataBytes f) a (a + m) := by
  rw [dlBytes, hdl]
  exact (bfSlice_frameBytes f.frame f.data.off f.data.len a m hlen).symm

/-- Where the data regions are the same, so is a part of them. -/
theorem HeaderCheck.dlBytes_put {f : Telegram} (hdl : DlInData f) (hdata : dataBytes (x.put f) = dataBytes f) :
    dlBytes (x.put f) = dlBytes f := by
  obtain ⟨a, m, hslice, hlen⟩ := hdl
  rw [dlBytes_eq_bfSlice hslice hlen, dlBytes_eq_bfSlice (f := x.put f) hslice hlen, hdata]

theorem HeaderCheck.erp1Prepare_put (c : Config) {f : Telegram} (hdata : dataBytes (x.put f) = dataBytes f) :
    erp1Prepare c (x.put f) = Prod.map x.put id (erp1Prepare c f) := by
  unfold erp1Prepare
  dsimp only
  rw [hdata]
  split
  case isTrue h =>
    have hdl := x.dlBytes_put (dlInData_erp1Slices (f := { f with crcsubOk := none }) h) hdata
    exact congrArg (fun p => (setTeachIn (erp1TeachIn c (byteAt (dataBytes f) 0) p) _, none)) hdl
  case isFalse => rfl

theorem HeaderCheck.subcrcFields_put (c : Config) {f : Telegram} (hdata : dataBytes (x.put f) = dataBytes f) :
    subcrcFields c (x.put f) = x.put (subcrcFields c f) := by
  have hwhy : (if subCrcOk c.crc8Table (dataBytes f) then none else some Reason.subCrc) ≠ some .hdrCrc := by split <;> decide
  have hreason := x.withReason_putReason hwhy f.reason
  unfold subcrcFields
  rw [hdata]
  unfold HeaderCheck.put
  rw [← hreason]

theorem HeaderCheck.erp2Header_put (c : Config) {f : Telegram} (hdata : dataBytes (x.put f) = dataBytes f) :
    erp2Header c (x.put f) = x.put (erp2Header c f) := by
  unfold erp2Header headerFields
  rw [hdata]
  split <;> rfl

theorem HeaderCheck.erp2Slices_put (row : AcRow) {f : Telegram} (hdata : dataBytes (x.put f) = dataBytes f) :
    erp2Slices row (x.put f) = x.put (erp2Slices row f) := by
  unfold erp2Slices
  rw [hdata]
  rfl

theorem HeaderCheck.erp2Sliced_put (c : Config) {row : AcRow} {f : Telegram} (hlen : acNeed row ≤ (dataBytes f).length)
    (hdata : dataBytes (x.put f) = dataBytes f) : erp2Sliced c row (x.put f) = x.put (erp2Sliced c row f) := by
  have hdl := x.dlBytes_put (dlInData_erp2Slices hlen) (x.dataBytes_put_congr (g := erp2Slices row f) rfl hdata)
  unfold erp2Sliced
  dsimp only
  rw [hdata, x.erp2Slices_put row hdata, hdl]
  rfl

theorem HeaderCheck.erp2Rest_put (c : Config) {f : Telegram} (hdata : dataBytes (x.put f) = dataBytes f) :
    erp2Rest c (x.put f) = Prod.map x.put id (erp2Rest c f) := by
  rcases erp2Guard_cases c (dataBytes f) with ⟨w, hguard, -⟩ | ⟨row, hguard, hlen⟩
  · rw [erp2Rest_error hguard, erp2Rest_error (by rw [hdata]; exact hguard)]
    rfl
  · rw [erp2Rest_ok hguard, erp2Rest_ok (by rw [hdata]; exact hguard), x.erp2Sliced_put c hlen hdata]
    rfl

theorem HeaderCheck.erp2Prepare_put (c : Config) {f : Telegram} (hdata : dataBytes (x.put f) = dataBytes f) :
    erp2Prepare c (x.put f) = Prod.map x.put id (erp2Prepare c f) := by
  have hsub := x.dataBytes_put_congr (headerOf_subcrcFields c f) hdata
  have hheader := x.dataBytes_put_congr (headerOf_erp2Header c (subcrcFields c f)) hsub
  unfold erp2Prepare
  rw [x.subcrcFields_put c hdata, x.erp2Header_put c hsub, x.erp2Rest_put c hheader]

/-- The step of the packet type comes to the same end where the data region is the same. -/
theorem HeaderCheck.rowPrepare_put (c : Config) {f : Telegram}
    (hdata : ∀ k, dataBytes (x.put (selectData k f)) = dataBytes (selectData k f)) :
    rowPrepare c (x.put f) = Prod.map x.put id (rowPrepare c f) := by
  have hptype : (x.put f).ptype = f.ptype := rfl
  have hselect (k : Kind) : selectData k (x.put f) = x.put (selectData k f) := rfl
  unfold rowPrepare
  rw [hptype, hselect, hselect, hselect]
  by_cases h2 : f.ptype = ptypeErp2
  · rw [if_pos h2, if_pos h2, x.erp2Prepare_put c (hdata _)]
  · rw [if_neg h2, if_neg h2]
    by_cases h1 : f.ptype = ptypeErp1
    · rw [if_pos h1, if_pos h1, x.erp1Prepare_put c (hdata _)]
    · rw [if_neg h1, if_neg h1]
      rfl

/-- So does the radio decode. -/
theorem HeaderCheck.endRadio_put (c : Config) (reg : List RegDevice) {f : Telegram} {p : Telegram × Option Reason}
    (hp : Prepared f p) (hdata : dataBytes (x.put f) = dataBytes f) :
    endRadio c reg (Prod.map x.put id p) = x.put (endRadio c reg p) := by
  have hend := x.dataBytes_put_congr hp.header hdata
  cases hwhy : p.2 with
  | some w =>
    rw [endRadio_turnedAway hwhy, endRadio_turnedAway (p := Prod.map x.put id p) hwhy]
    exact x.opaqueResult_put (hp.turnedAway w hwhy).1 hend
  | none =>
    rw [endRadio_sliced hwhy, endRadio_sliced (p := Prod.map x.put id p) hwhy]
    exact x.finishRadio_put c _ _ (x.dlBytes_put (hp.sliced hwhy) hend)

/-! The record. -/

theorem headerOf_endRadio (c : Config) (reg : List RegDevice) (p : Telegram × Option Reason) :
    headerOf (endRadio c reg p) = headerOf p.1 := by
  unfold endRadio
  split
  · exact headerOf_opaqueResult _ _
  · exact headerOf_finishRadio _ _ _ _

/-- The steps after the radio decode read nothing of the header, so they write the same but for `CRC`. -/
theorem HeaderCheck.closeFields_put (c : Config) {f : Telegram} (hframes : SameButByte5 f.frame x.frame)
    (hlen : 6 + (f.dlen.toNat + f.olen.toNat) < f.frame.length) :
    ∃ crc, closeFields c (x.put f) = { x.put (closeFields c f) with crc := crc } := by
  have hcovered := hframes.frameBytes_eq (off := 6) (n := f.dlen.toNat + f.olen.toNat) (by omega) (.inr le_rfl)
  have hcandidate := hframes.frameByte_eq (i := 6 + (f.dlen.toNat + f.olen.toNat)) (by omega) hlen
  have hregion := hframes.frameBytes_eq (off := 6 + f.dlen.toNat) (n := f.olen.toNat) (by omega) (.inr (by omega))
  have hwhy (p : Prop) [Decidable p] : (if p then none else some Reason.dataCrc) ≠ some .hdrCrc := by split <;> rintro ⟨⟩
  have hreason (p : Prop) [Decidable p] := x.withReason_putReason (hwhy p) f.reason
  refine ⟨(closeFields c (x.put f)).crc, ?_⟩
  unfold closeFields HeaderCheck.put
  dsimp only
  rw [hcovered, hcandidate, hregion, hreason]

theorem HeaderCheck.putReason_header (p : Prop) [Decidable p] :
    x.putReason (if p then [] else [.hdrCrc]) = if x.ok then [] else [.hdrCrc] := by
  unfold HeaderCheck.putReason
  split <;> simp

/-- The header registers of two such frames differ in the header check only. -/
theorem startFields_put (c : Config) {frame frame' : Bytes} (h : SameButByte5 frame frame') (hlen : 7 ≤ frame.length) :
    startFields c frame' = (headerCheckOf c frame').put (startFields c frame) := by
  have hdlen : (hdrFields c { blankTelegram with frame := frame' }).dlen =
      (hdrFields c { blankTelegram with frame := frame }).dlen := by
    rw [hdrFields_dlen, hdrFields_dlen]
    dsimp only
    rw [h.frameByte_eq (i := 1) (by decide) (by omega), h.frameByte_eq (i := 2) (by decide) (by omega)]
  have hcheck : (headerCheckOf c frame').ok = decide (crc8 c.crc8Table (frameBytes frame' 1 4) = frameByte frame' 5) := rfl
  rw [startFields_eq, startFields_eq, hdlen, h.frameByte_eq (i := 3) (by decide) (by omega),
    h.frameByte_eq (i := 4) (by decide) (by omega)]
  unfold HeaderCheck.put
  dsimp only
  rw [HeaderCheck.putReason_header, hcheck]
  simp only [decide_eq_true_eq]
  rfl

/-- The regions that the header of a complete frame announces lie inside it, the data CRC behind them. -/
theorem startFields_regions {c : Config} {frame : Bytes} (hok : frameOk c frame = true) :
    6 + ((startFields c frame).dlen.toNat + (startFields c frame).olen.toNat) < frame.length := by
  obtain ⟨hmin, hlt, hlen⟩ := frameOk_length c frame hok
  have hbyte {i : Nat} (hi : i < frame.length) : frameByte frame i = byteAt frame i := by
    rw [frameByte_of_getElem? (List.getElem?_eq_getElem hi), byteAt, List.getD_eq_getElem?_getD, List.getElem?_eq_getElem hi]
    rfl
  have hread {i : Nat} (hi : i < 6) : byteAt (frameBytes frame 0 6) i = byteAt frame i := by
    rw [byteAt_frameBytes frame 0 6 i hi, Nat.zero_add, hbyte (by omega)]
  have hdlen : (startFields c frame).dlen.toNat = bfU16 c.lenOrder frame 1 := by
    rw [startFields_eq]
    show (BitVec.ofNat 16 (bfU16 c.lenOrder (frameBytes frame 0 6) 1)).toNat = _
    unfold bfU16 at hlt ⊢
    rw [hread (i := 1) (by decide), hread (i := 1 + 1) (by decide), BitVec.toNat_ofNat]
    exact Nat.mod_eq_of_lt hlt
  have holen : (startFields c frame).olen = byteAt frame 3 := by
    rw [startFields_eq]
    exact hbyte (by omega)
  rw [hdlen, holen]
  omega

/-- The records of two complete frames that differ in byte 5 differ in the header check and in `CRC`. -/
theorem recordOf_put (c : Config) (reg : List RegDevice) {frame frame' : Bytes} (h : SameButByte5 frame frame')
    (hok : frameOk c frame = true) :
    ∃ crc, recordOf c reg frame' = { (headerCheckOf c frame').put (recordOf c reg frame) with crc := crc } := by
  have hlen := (frameOk_length c frame hok).1
  have hregions := startFields_regions hok
  have hstart : (startFields c frame).frame = frame := by rw [startFields_eq]
  obtain ⟨k, hprep⟩ := prepared_rowPrepare c (startFields c frame)
  have hdata (k : Kind) : dataBytes ((headerCheckOf c frame').put (selectData k (startFields c frame))) =
      dataBytes (selectData k (startFields c frame)) := by
    show frameBytes frame' 6 (startFields c frame).dlen.toNat = frameBytes (startFields c frame).frame 6 _
    rw [hstart]
    exact h.frameBytes_eq (by omega) (.inr le_rfl)
  have hheader := (headerOf_endRadio c reg (rowPrepare c (startFields c frame))).trans hprep.header
  simp only [headerOf, selectData, Prod.mk.injEq] at hheader
  obtain ⟨hframe, hdlen, holen, -⟩ := hheader
  unfold recordOf
  rw [startFields_put c h hlen, HeaderCheck.rowPrepare_put _ c hdata, HeaderCheck.endRadio_put _ c reg hprep (hdata k)]
  refine HeaderCheck.closeFields_put _ c ?_ ?_
  · rw [hframe, hstart]
    exact h
  · rw [hdlen, holen, hframe, hstart]
    exact hregions

/-- Settles O54: the radio decode and the steps after it read nothing of the header check, which stands in the record as it does in the
header registers. -/
theorem headerCrcByteChangesNothingElse : Obligations.HeaderCrcByteChangesNothingElse := by
  intro cfg reg front more b b' r hfront hdec
  have hsame := sameButByte5_append more b b' hfront
  rw [decodeFrame_eq] at hdec
  split at hdec
  case isFalse => cases hdec
  case isTrue hok =>
    obtain ⟨crc, hrecord⟩ := recordOf_put cfg reg hsame hok
    rw [Option.some.inj hdec] at hrecord
    have hbyte : frameByte (front ++ b' :: more) 5 = b' := frameByte_of_getElem? (by rw [← hfront]; simp)
    have hcovered : frameBytes (front ++ b' :: more) 1 4 = front.drop 1 := by
      obtain ⟨sync, header, rfl⟩ : ∃ sync header, front = sync :: header := List.exists_cons_of_length_pos (by omega)
      have hheader : header.length = 4 := by simpa using hfront
      rw [← hheader]
      exact frameBytes_append [sync] header (b' :: more)
    have hcheck : headerCheckOf cfg (front ++ b' :: more) =
        ⟨front ++ b' :: more, b', decide (crc8 cfg.crc8Table (front.drop 1) = b')⟩ := by
      rw [headerCheckOf, hcovered, hbyte]
    rw [hcheck] at hrecord
    refine ⟨recordOf cfg reg (front ++ b' :: more), ?_, ?_, ?_, ?_, ?_⟩
    · rw [decodeFrame_eq, hsame.frameOk_eq, if_pos hok]
    all_goals rw [hrecord]
    · rfl
    · exact decide_eq_true_iff
    · exact fun q hq => HeaderCheck.mem_putReason _ hq _
    · rfl

end Sys2Proof.Machine
end

section
/-! PROOFS. The operations of the ERP2 radio decoder, one at a time (spec/44_erp2.md R181 to R188, R194, R195; spec/30_encoding.md R92,
R93). -/

namespace Sys2Proof.Machine

/-! The sub-frame CRC. -/

/-- The candidate is the last byte of the region, the covered bytes are the others (R181). -/
theorem subCrcOk_append_singleton (table : List Byte) (body : Bytes) (k : Byte) :
    subCrcOk table (body ++ [k]) = crc8Ok table k body := by
  have hlen : (body ++ [k]).length - 1 = body.length := by simp
  have hcandidate : byteAt (body ++ [k]) body.length = k := byteAt_append_add body [k] 0
  have hcovered : bfSlice (body ++ [k]) 0 body.length = body := by simp [bfSlice]
  rw [subCrcOk, if_neg (by simp), hlen, hcandidate, hcovered]

theorem subCrcOk_cons (table : List Byte) (h : Byte) (more : Bytes) :
    subCrcOk table (h :: more) = crc8Ok table ((h :: more).getLastD 0) (h :: more).dropLast := by
  obtain ⟨body, k, hd⟩ : ∃ body k, h :: more = body ++ [k] :=
    ⟨_, _, (List.dropLast_append_getLast (List.cons_ne_nil h more)).symm⟩
  rw [hd, subCrcOk_append_singleton, List.dropLast_concat, List.getLastD_concat]

/-- Settles O27: the last byte is checked against the ones before it, and an empty region fails. -/
theorem erp2SubcrcChecksTheSubframe : Obligations.Erp2SubcrcChecksTheSubframe := by
  intro s
  have hexec : exec .erp2Subcrc s = .next (s.setFields (subcrcFields s.cfg s.fields)) := execErp2Subcrc_eq s
  refine ⟨fun body k hd => ?_, fun hd => ?_⟩
  · rw [hexec, subcrcFields, hd, subCrcOk_append_singleton, crc8Ok]
    simp only [decide_eq_true_eq]
    rfl
  · rw [hexec, subcrcFields, hd]
    rfl

/-! The header byte. -/

theorem headerAc_eq_extractLsb' (h : Byte) : headerAc h = h.extractLsb' 5 3 := by
  apply BitVec.eq_of_toNat_eq
  rw [headerAc_toNat, BitVec.extractLsb'_toNat, Nat.shiftRight_eq_div_pow]
  omega

theorem headerEha_eq_extractLsb' (h : Byte) : headerEha h = h.extractLsb' 4 1 := by
  apply BitVec.eq_of_toNat_eq
  rw [headerEha_toNat, BitVec.extractLsb'_toNat, Nat.shiftRight_eq_div_pow]

theorem headerTt_eq_extractLsb' (h : Byte) : headerTt h = h.extractLsb' 0 4 := by
  apply BitVec.eq_of_toNat_eq
  rw [headerTt_toNat, BitVec.extractLsb'_toNat, Nat.shiftRight_zero]

theorem headerEha_eq_ofBool (h : Byte) : headerEha h = BitVec.ofBool (h.getLsbD 4) := by
  rw [headerEha, bfBit_eq]
  cases h.getLsbD 4 <;> rfl

/-- Settles O28: the three fields of the header byte are its bits. -/
theorem erp2HdrbyteSplitsTheHeader : Obligations.Erp2HdrbyteSplitsTheHeader := by
  intro s h more hd
  have hne : 1 ≤ (dataBytes s.fields).length := by simp [hd]
  show execErp2Hdrbyte s = _
  rw [execErp2Hdrbyte_nonempty hne, headerFields, hd, ← headerAc_eq_extractLsb', ← headerEha_eq_extractLsb',
    ← headerTt_eq_extractLsb']
  rfl

/-! The Address Control operations. -/

/-- Each Address Control operation is the row of its value, `ERP2.ACRSV` that of `1xx` (30_encoding.md R92). -/
theorem exec_addressControl (eha : BitVec 1) (tt : BitVec 4) (ac : BitVec 2) :
    ∀ p ∈ [(Instr.erp2Ac0 eha tt, 0), (.erp2Ac1 eha tt, 1), (.erp2Ac2 eha tt, 2), (.erp2Ac3 eha tt, 3),
           (.erp2Acrsv ac eha tt, 4 + ac.toNat)],
      ∃ a : BitVec 3, a.toNat = p.2 ∧ ∀ s, exec p.1 s = erp2AcRow a s := by
  simp only [List.forall_mem_cons]
  exact ⟨⟨0, rfl, fun _ => rfl⟩, ⟨1, rfl, fun _ => rfl⟩, ⟨2, rfl, fun _ => rfl⟩, ⟨3, rfl, fun _ => rfl⟩,
    ⟨_, reservedAc_toNat ac, fun _ => rfl⟩, fun _ hp => absurd hp List.not_mem_nil⟩

/-- A value that the table reserves. -/
theorem erp2AcRow_reserved {s : State} {ac : BitVec 3} (hrow : acLookup s.cfg ac = none) :
    erp2AcRow ac s = .next (s.setFields (opaqueResult .erp2AcReserved s.fields)) := by
  rw [erp2AcRow_eq, hrow]

/-- A value whose ids fit the region. -/
theorem erp2AcRow_fits {s : State} {ac : BitVec 3} {row : AcRow} (hrow : acLookup s.cfg ac = some row)
    (hlen : acNeed row ≤ (dataBytes s.fields).length) :
    erp2AcRow ac s = .next (s.setFields (erp2Ids (dataBytes s.fields) row s.fields)) := by
  rw [erp2AcRow_eq, hrow]
  dsimp only
  rw [if_pos hlen]

theorem bigEndian_eq_bytesValue (bytes : Bytes) : bigEndian bytes = bytesValue bytes := (bytesValue_eq_ofDigits bytes).symm

/-- The ids are the bytes between the header byte and Data_DL, in the widths of the row (44_erp2.md R184, R185). -/
theorem erp2Ids_eq {row : AcRow} {oid did : Bytes} (hoid : oid.length = widthBytes row.width) (hdid : did.length = didBytes row)
    (h : Byte) (more : Bytes) (f : Telegram) :
    erp2Ids (h :: (oid ++ (did ++ more))) row f =
      { f with
        oidw := some row.width
        oid := some (BitVec.ofNat 48 (bigEndian oid))
        did := if row.hasDid then some (BitVec.ofNat 32 (bigEndian did)) else none } := by
  have horiginator : bfSlice (h :: (oid ++ (did ++ more))) 1 (1 + widthBytes row.width) = oid :=
    hoid ▸ bfSlice_append_append [h] oid (did ++ more)
  have hdestination (hhas : row.hasDid = true) :
      bfSlice (h :: (oid ++ (did ++ more))) (1 + widthBytes row.width) (5 + widthBytes row.width) = did := by
    have hcut := bfSlice_append_append (h :: oid) did more
    rw [hdid, didBytes, if_pos hhas, List.length_cons, hoid] at hcut
    rw [Nat.add_comm 1, show 5 + widthBytes row.width = widthBytes row.width + 1 + 4 by omega]
    exact hcut
  have hdidRegister :
      (if row.hasDid then some (BitVec.ofNat 32 (bytesValue
          (bfSlice (h :: (oid ++ (did ++ more))) (1 + widthBytes row.width) (5 + widthBytes row.width)))) else none) =
        if row.hasDid then some (BitVec.ofNat 32 (bytesValue did)) else none :=
    ite_congr rfl (fun hhas => by rw [hdestination hhas]) fun _ => rfl
  rw [bigEndian_eq_bytesValue, bigEndian_eq_bytesValue, erp2Ids, horiginator, hdidRegister, bfIdnorm]

/-- Settles O29: every Address Control operation is a row of the table, and the row slices the ids. -/
theorem erp2AddressControlSlicesTheIds : Obligations.Erp2AddressControlSlicesTheIds := by
  intro s eha tt ac row h oid did more hd hoid hdid hmore p hp hrow
  obtain ⟨a, ha, hexec⟩ := exec_addressControl eha tt ac p hp
  have hfits : acNeed row ≤ (dataBytes s.fields).length := by
    have hpos := List.length_pos_iff.2 hmore
    simp only [hd, List.length_cons, List.length_append, acNeed, didBytes]
    omega
  rw [hexec, erp2AcRow_fits (acLookup_of_getElem? (ha ▸ hrow)) hfits, hd, erp2Ids_eq hoid hdid]
  rfl

/-- Settles O30: a reserved row, `ERP2.EHA`, and the two conditions of `ERP2.SHORT`. -/
theorem erp2GuardsAreOpaque : Obligations.Erp2GuardsAreOpaque := by
  intro s eha tt ac ac3
  refine ⟨fun p hp hrow => ?_, rfl, fun hempty => ?_, fun row hne hac hrow hlen => ?_⟩
  · obtain ⟨a, ha, hexec⟩ := exec_addressControl eha tt ac p hp
    rw [hexec, erp2AcRow_reserved (acLookup_of_getElem? (ha ▸ hrow))]
    rfl
  · exact if_pos (List.length_eq_zero_iff.2 hempty)
  · exact execErp2Short_short (fun h0 => hne (List.length_eq_zero_iff.1 h0)) hac (acLookup_of_getElem? hrow) hlen

/-! The Telegram Type operations. -/

/-- Each Telegram Type operation is the row of its value, which the default table gives this RORG (30_encoding.md R93). -/
theorem exec_telegramType (ac : BitVec 3) (eha : BitVec 1) :
    ∀ p ∈ ([(.erp2Tt0 ac eha, 0, some 0xF6), (.erp2Tt1 ac eha, 1, some 0xD5), (.erp2Tt2 ac eha, 2, some 0xA5),
            (.erp2Tt3 ac eha, 3, some 0xD0), (.erp2Tt4 ac eha, 4, some 0xD2), (.erp2Tt5 ac eha, 5, some 0xD4),
            (.erp2Tt6 ac eha, 6, some 0xD1), (.erp2Tt7 ac eha, 7, some 0x30), (.erp2Tt8 ac eha, 8, some 0x31),
            (.erp2Tt9 ac eha, 9, some 0x35), (.erp2Tt10 ac eha, 10, some 0xB3), (.erp2Ttrsv11 ac eha, 11, none),
            (.erp2Ttrsv12 ac eha, 12, none), (.erp2Ttrsv13 ac eha, 13, none), (.erp2Ttrsv14 ac eha, 14, none),
            (.erp2Ttext ac eha, 15, none)] : List (Instr × Nat × Option Byte)),
      configDefault.ttTable[p.2.1]? = some p.2.2 ∧ ∃ tt : BitVec 4, tt.toNat = p.2.1 ∧ ∀ s, exec p.1 s = erp2TtRow tt s := by
  simp only [List.forall_mem_cons]
  exact ⟨⟨rfl, 0, rfl, fun _ => rfl⟩, ⟨rfl, 1, rfl, fun _ => rfl⟩, ⟨rfl, 2, rfl, fun _ => rfl⟩, ⟨rfl, 3, rfl, fun _ => rfl⟩,
    ⟨rfl, 4, rfl, fun _ => rfl⟩, ⟨rfl, 5, rfl, fun _ => rfl⟩, ⟨rfl, 6, rfl, fun _ => rfl⟩, ⟨rfl, 7, rfl, fun _ => rfl⟩,
    ⟨rfl, 8, rfl, fun _ => rfl⟩, ⟨rfl, 9, rfl, fun _ => rfl⟩, ⟨rfl, 10, rfl, fun _ => rfl⟩, ⟨rfl, 11, rfl, fun _ => rfl⟩,
    ⟨rfl, 12, rfl, fun _ => rfl⟩, ⟨rfl, 13, rfl, fun _ => rfl⟩, ⟨rfl, 14, rfl, fun _ => rfl⟩, ⟨rfl, 15, rfl, fun _ => rfl⟩,
    fun _ hp => absurd hp List.not_mem_nil⟩

/-- What a Telegram Type operation writes: `RORG`, and `TI` and `MANUF` once Data_DL has been sliced. -/
theorem erp2TtRow_registers (tt : BitVec 4) (s : State) :
    erp2TtRow tt s =
      .next (s.setFields { s.fields with
        rorg := s.cfg.ttTable.getD tt.toNat none
        ti := if s.fields.dl = none then s.fields.ti else erp2TeachIn s.cfg tt (dlBytes s.fields)
        manuf := if s.fields.dl = none then s.fields.manuf
          else (erp2TeachIn s.cfg tt (dlBytes s.fields)).bind TeachIn.manuf }) := by
  rw [erp2TtRow_eq]
  by_cases hdl : s.fields.dl = none
  · simp only [if_pos hdl]
    rfl
  · simp only [if_neg hdl]
    rfl

theorem eq_iff_of_toNat_eq {w n : Nat} {x : BitVec w} (h : x.toNat = n) (y : BitVec w) : x = y ↔ n = y.toNat := by
  rw [← h, BitVec.toNat_inj]

/-- Settles O31: every Telegram Type operation is a row, and the row selects the Teach-In decoder by its value. -/
theorem erp2TelegramTypesReportTheRorg : Obligations.Erp2TelegramTypesReportTheRorg := by
  intro s ac eha p hp
  obtain ⟨htable, tt, htt, hexec⟩ := exec_telegramType ac eha p hp
  refine ⟨htable, erp2TeachIn s.cfg tt (dlBytes s.fields), ?_, ?_⟩
  · exact if_congr (eq_iff_of_toNat_eq htt 2) rfl (if_congr (eq_iff_of_toNat_eq htt 1) (teachIn1bs_eq _) rfl)
  · rw [hexec, erp2TtRow_registers, htt]
    rfl

end Sys2Proof.Machine
end

section
/-! PROOFS. `ERP2.DECODE` (spec/44_erp2.md R180): its guards in their order, and what it writes behind them. -/

namespace Sys2Proof.Machine

/-! The header byte and the guards. -/

theorem dataBytes_subcrcFields (c : Config) (f : Telegram) : dataBytes (subcrcFields c f) = dataBytes f :=
  dataBytes_congr _ _ (headerOf_subcrcFields c f)

theorem dataBytes_headerFields (f : Telegram) : dataBytes (headerFields f) = dataBytes f := rfl

theorem dataBytes_erp2Header_subcrcFields (c : Config) (f : Telegram) :
    dataBytes (erp2Header c (subcrcFields c f)) = dataBytes f :=
  (dataBytes_erp2Header c _).trans (dataBytes_subcrcFields c f)

/-- An empty region fails the sub-frame CRC and is turned away before a header byte is read. -/
theorem execErp2Decode_empty {s : State} (hd : dataBytes s.fields = []) :
    execErp2Decode s = .next (s.setFields (erp2Empty (subcrcFields s.cfg s.fields))) := by
  have hsub : (dataBytes (subcrcFields s.cfg s.fields)).length = 0 := by
    rw [dataBytes_subcrcFields, hd]
    rfl
  unfold execErp2Decode
  rw [execErp2Subcrc_eq, andThen_next, setFields_fields, if_pos hsub, execErp2Short_eq, setFields_fields, if_pos hsub]
  rfl

/-- On a region that is not empty the registers of the sub-frame CRC and of the header byte are written first. -/
theorem execErp2Decode_nonempty {s : State} {h : Byte} {more : Bytes} (hd : dataBytes s.fields = h :: more) :
    execErp2Decode s = erp2Body h (s.setFields (erp2Header s.cfg (subcrcFields s.cfg s.fields))) := by
  have hsub : dataBytes (subcrcFields s.cfg s.fields) = h :: more := (dataBytes_subcrcFields _ _).trans hd
  have hne : (dataBytes (subcrcFields s.cfg s.fields)).length ≠ 0 := by simp [hsub]
  unfold execErp2Decode
  rw [execErp2Subcrc_eq, andThen_next, setFields_fields, if_neg hne,
    execErp2Hdrbyte_nonempty (s := s.setFields (subcrcFields s.cfg s.fields)) (Nat.one_le_iff_ne_zero.2 hne), andThen_next,
    erp2Header_nonempty _ hne]
  have hbyte : byteAt (dataBytes (subcrcFields s.cfg s.fields)) 0 = h := by rw [hsub]; rfl
  simp only [setFields_setFields, setFields_fields, setFields_cfg, dataBytes_headerFields, hbyte]

/-- The registers that stand when the guards are tested. -/
theorem erp2Header_subcrcFields (c : Config) {f : Telegram} {h : Byte} {more : Bytes} (hd : dataBytes f = h :: more) :
    erp2Header c (subcrcFields c f) =
      { f with
        crcsubOk := some (subCrcOk c.crc8Table (h :: more))
        ac := some (headerAc h)
        eha := some (headerEha h)
        tt := some (headerTt h)
        rorg := c.ttTable.getD (headerTt h).toNat none
        reason := withReason (if subCrcOk c.crc8Table (h :: more) then none else some .subCrc) f.reason } := by
  have hsub : dataBytes (subcrcFields c f) = h :: more := (dataBytes_subcrcFields c f).trans hd
  rw [erp2Header_nonempty c (by simp [hsub]), headerFields, hsub, subcrcFields, hd]
  rfl

theorem erp2Body_reserved {h : Byte} {s : State} (hrow : acLookup s.cfg (headerAc h) = none) :
    erp2Body h s = .next (s.setFields (opaqueResult .erp2AcReserved s.fields)) := by
  unfold erp2Body
  rw [hrow]
  exact erp2AcRow_reserved hrow

section
variable {h : Byte} {s : State} {row : AcRow} (hrow : acLookup s.cfg (headerAc h) = some row)
include hrow

theorem erp2Body_eha (heha : headerEha h = 1) : erp2Body h s = .next (s.setFields (opaqueResult .erp2Eha s.fields)) := by
  unfold erp2Body
  rw [hrow]
  exact if_pos heha

theorem erp2Body_short (heha : headerEha h ≠ 1) (hne : (dataBytes s.fields).length ≠ 0)
    (hac : s.fields.ac = some (headerAc h)) (hlen : (dataBytes s.fields).length < acNeed row) :
    erp2Body h s = .next (s.setFields (opaqueResult .erp2Short s.fields)) := by
  unfold erp2Body
  rw [hrow]
  dsimp only
  rw [if_neg heha, if_pos hlen]
  exact execErp2Short_short hne hac hrow hlen

/-- A region that no guard turns away is sliced, and the originator id asked for once. -/
theorem erp2Body_passes (heha : headerEha h ≠ 1) (hlen : acNeed row ≤ (dataBytes s.fields).length) :
    ∃ (f g : Telegram) (id : Id48),
      f = erp2Slices row s.fields ∧
      g = setTeachIn (erp2TeachIn s.cfg (headerTt h) (dlBytes f)) (erp2Rorg s.cfg (headerTt h) f) ∧
      id = f.oid.getD 0 ∧
      erp2Body h s = .next (localNext (finishRadio s.cfg id (regLookup s.reg id) g) [id] s) := by
  refine ⟨_, _, _, rfl, rfl, rfl, ?_⟩
  have htail := radioTail_erp2TtRow (headerTt h) (s := s.setFields (erp2Slices row s.fields)) (Option.some_ne_none _)
  rw [endRadio_sliced rfl] at htail
  unfold erp2Body
  rw [hrow]
  dsimp only
  rw [if_neg heha, if_neg (not_lt.2 hlen), erp2AcRow_fits hrow hlen, andThen_next]
  exact htail

end

/-- Settles O33: the four guards in their order, over the registers that are written before them. -/
theorem erp2DecodeDegradesForTheFirstReason : Obligations.Erp2DecodeDegradesForTheFirstReason := by
  intro s
  refine ⟨fun hempty => ?_, fun h more hd => ⟨_, _, rfl, rfl, ?_⟩⟩
  · have hexec : exec .erp2Decode s = _ := execErp2Decode_empty hempty
    rw [hexec, subcrcFields, hempty]
    rfl
  · rw [← subCrcOk_cons, ← headerAc_eq_extractLsb', ← headerEha_eq_extractLsb', ← headerTt_eq_extractLsb',
      ← erp2Header_subcrcFields s.cfg hd]
    have hexec : exec .erp2Decode s = _ := execErp2Decode_nonempty hd
    have hac : (erp2Header s.cfg (subcrcFields s.cfg s.fields)).ac = some (headerAc h) := by
      rw [erp2Header_subcrcFields s.cfg hd]
    refine ⟨fun hrow => ?_, fun row hrow => ⟨fun heha => ?_, fun heha hlen => ?_⟩⟩
    · exact hexec.trans (erp2Body_reserved hrow)
    · exact hexec.trans (erp2Body_eha hrow (by rw [headerEha_eq_ofBool, heha]; rfl))
    · refine hexec.trans (erp2Body_short hrow (by rw [headerEha_eq_ofBool, heha]; decide) ?_ hac ?_)
      all_goals rw [setFields_fields, dataBytes_erp2Header_subcrcFields, hd]
      · exact Nat.succ_ne_zero _
      · exact hlen

/-! Behind the guards. -/

section
variable {row : AcRow} {f : Telegram} {h k : Byte} {oid did dl : Bytes} (hd : dataBytes f = h :: (oid ++ (did ++ (dl ++ [k]))))
  (hoid : oid.length = widthBytes row.width) (hdid : did.length = didBytes row)
include hd hoid hdid

theorem acNeed_le_of_slices : acNeed row ≤ (dataBytes f).length := by
  simp only [hd, acNeed, List.length_cons, List.length_append, List.length_nil]
  omega

/-- The ids, and Data_DL between them and the last byte (44_erp2.md R184 to R186). -/
theorem erp2Slices_eq :
    erp2Slices row f =
      { f with
        oidw := some row.width
        oid := some (BitVec.ofNat 48 (bigEndian oid))
        did := if row.hasDid then some (BitVec.ofNat 32 (bigEndian did)) else none
        dl := some ⟨f.data.off + (1 + oid.length + did.length), dl.length⟩ } := by
  have hlen : (dataBytes f).length - 1 - (1 + oid.length + did.length) = dl.length := by
    simp only [hd, List.length_cons, List.length_append, List.length_nil]
    omega
  have hids := erp2Ids_eq hoid hdid h (dl ++ [k]) f
  rw [← hd] at hids
  rw [erp2Slices, hids, erp2Dl, ← hoid, ← hdid, hlen]

theorem dlBytes_erp2Slices : dlBytes (erp2Slices row f) = dl := by
  have hstart : (h :: (oid ++ did)).length = 1 + oid.length + did.length := by
    simp only [List.length_cons, List.length_append]
    omega
  have hroom : 1 + oid.length + did.length + dl.length ≤ f.data.len := by
    simp only [← dataBytes_length, hd, List.length_cons, List.length_append, List.length_nil]
    omega
  have hcut := bfSlice_append_append (h :: (oid ++ did)) dl [k]
  rw [hstart, List.cons_append, List.append_assoc, ← hd] at hcut
  have hdl : (erp2Slices row f).dl = some ⟨(erp2Slices row f).data.off + (1 + oid.length + did.length), dl.length⟩ := by
    rw [erp2Slices_eq hd hoid hdid]
  exact (dlBytes_eq_bfSlice hdl hroom).trans hcut

end

/-- A region that no guard turns away: the registers of the header byte, the slices and the Teach-In of the Telegram Type, one question
to the registry, the end of the radio decode. -/
theorem execErp2Decode_passes {s : State} {row : AcRow} {h k : Byte} {oid did dl : Bytes}
    (hd : dataBytes s.fields = h :: (oid ++ (did ++ (dl ++ [k])))) (hoid : oid.length = widthBytes row.width)
    (hdid : did.length = didBytes row) (hrow : acLookup s.cfg (headerAc h) = some row) (heha : headerEha h ≠ 1) :
    ∃ (id : Id48) (g : Telegram),
      id = BitVec.ofNat 48 (bigEndian oid) ∧
      g = setTeachIn (erp2TeachIn s.cfg (headerTt h) dl)
        (erp2Rorg s.cfg (headerTt h) (erp2Slices row (erp2Header s.cfg (subcrcFields s.cfg s.fields)))) ∧
      dlBytes g = dl ∧
      execErp2Decode s = .next (localNext (finishRadio s.cfg id (regLookup s.reg id) g) [id] s) := by
  have hregion := (dataBytes_erp2Header_subcrcFields s.cfg s.fields).trans hd
  have hdl := dlBytes_erp2Slices hregion hoid hdid
  obtain ⟨f, g, id, hf, hg, hid, hbody⟩ := erp2Body_passes
    (s := s.setFields (erp2Header s.cfg (subcrcFields s.cfg s.fields))) hrow heha (acNeed_le_of_slices hregion hoid hdid)
  rw [setFields_fields] at hf
  rw [hf, erp2Slices_eq hregion hoid hdid] at hid
  rw [hf, hdl] at hg
  exact ⟨id, g, hid, hg, hg ▸ hdl, (execErp2Decode_nonempty hd).trans hbody⟩

/-! The end of a radio decode, in the terms of the statements. -/

/-- The payload message over the resolved profile (44_erp2.md R192). -/
theorem payloadMessage_eq (cfg : Config) {f : Telegram} {found : Option RegDevice} (heep : f.eep = resolvedEep f.ti found) :
    payloadMessage cfg f =
      { f with
        report := (frameReport cfg f.ti found (dlBytes f)).1
        learn := (frameReport cfg f.ti found (dlBytes f)).1.learn
        reason := withReason (frameReport cfg f.ti found (dlBytes f)).2 f.reason } := by
  obtain hti | ⟨x, hti⟩ := Option.eq_none_or_eq_some f.ti
  · have hreport : frameReport cfg f.ti found (dlBytes f) = dispatch cfg f.eep (dlBytes f) := by rw [heep, hti]; rfl
    rw [payloadMessage_dispatch cfg hti, hreport]
  · have hreport : frameReport cfg f.ti found (dlBytes f) = (teachInReport x (dlBytes f), none) := by
      rw [hti, teachInReport, teachInValue_eq]
      rfl
    rw [payloadMessage_teachIn cfg hti, hreport]
    rfl

/-- The record of the originator (44_erp2.md R189). -/
theorem resolveDevice_eq {id : Id48} {found : Option RegDevice} {f : Telegram} (heep : f.eep = resolvedEep f.ti found)
    (hmanuf : f.manuf = f.ti.bind TeachIn.manuf) : resolveDevice id found f = { f with dev := some (frameDevice id f.ti found) } := by
  cases found with
  | some d => rfl
  | none =>
    unfold resolveDevice frameDevice transientDevice
    dsimp only
    rw [heep, hmanuf]

/-- The end of a radio decode, register by register (44_erp2.md R189 to R192, 45_erp1.md R208 to R211). -/
theorem finishRadio_eq (cfg : Config) (id : Id48) (found : Option RegDevice) {f : Telegram}
    (hmanuf : f.manuf = f.ti.bind TeachIn.manuf) :
    finishRadio cfg id found f =
      { f with
        eep := resolvedEep f.ti found
        report := (frameReport cfg f.ti found (dlBytes f)).1
        learn := (frameReport cfg f.ti found (dlBytes f)).1.learn
        dev := some (frameDevice id f.ti found)
        known := isKnown cfg.profileTable (resolvedEep f.ti found)
        reason := withReason (frameReport cfg f.ti found (dlBytes f)).2 f.reason } := by
  have hmessage := payloadMessage_eq cfg (f := resolveEep found f) (found := found) rfl
  have hdevice := resolveDevice_eq (id := id) (found := found) (f := payloadMessage cfg (resolveEep found f))
    (by rw [hmessage]; rfl) (by rw [hmessage]; exact hmanuf)
  rw [finishRadio, hdevice, hmessage]
  rfl

/-- The value map of a teach-in report (46_eep_dispatch.md R229). -/
theorem frameReport_teachIn (cfg : Config) (x : TeachIn) (found : Option RegDevice) (payload : Bytes) :
    frameReport cfg (some x) found payload = (⟨teachInMap x, none, true, payload⟩, none) := rfl

/-- Settles O32: the registers before the guards, the slices and the Teach-In, and the end of the radio decode. -/
theorem erp2DecodeFillsEveryRegister : Obligations.Erp2DecodeFillsEveryRegister := by
  intro s row h k oid did dl hd hrow heha hoid hdid
  rw [← headerAc_eq_extractLsb'] at hrow
  rw [← headerAc_eq_extractLsb', ← headerTt_eq_extractLsb']
  refine ⟨_, erp2TeachIn s.cfg (headerTt h) dl, _, _, rfl, ?_, rfl, rfl, ?_, ?_⟩
  · exact if_congr Iff.rfl rfl (if_congr Iff.rfl (teachIn1bs_eq dl) rfl)
  · intro x hx
    rw [hx, frameReport_teachIn, teachInMap, List.append_assoc]
  · have hsub : subCrcOk s.cfg.crc8Table (h :: (oid ++ (did ++ (dl ++ [k])))) =
        decide (crc8 s.cfg.crc8Table (h :: (oid ++ (did ++ dl))) = k) := by
      have hlast := subCrcOk_append_singleton s.cfg.crc8Table (h :: (oid ++ (did ++ dl))) k
      rwa [List.cons_append, List.append_assoc, List.append_assoc] at hlast
    have hclear : headerEha h = 0 := by rw [headerEha_eq_ofBool, heha]; rfl
    have hregion := (dataBytes_erp2Header_subcrcFields s.cfg s.fields).trans hd
    obtain ⟨id, g, rfl, hg, hdl, hexec⟩ :=
      execErp2Decode_passes hd hoid hdid (acLookup_of_getElem? hrow) (by rw [hclear]; decide)
    show execErp2Decode s = _
    rw [hexec, finishRadio_eq _ _ _ (by rw [hg]; rfl), hdl, hg, erp2Slices_eq hregion hoid hdid, erp2Header_subcrcFields s.cfg hd,
      hsub, hclear]
    rfl

end Sys2Proof.Machine
end

section
/-! PROOFS. The record of a frame and the registry (spec/44_erp2.md R187, spec/20_memory.md R62): one look-up, of the originator that the
record names. -/

namespace Sys2Proof.Machine

theorem oid_closeFields (c : Config) (f : Telegram) : (closeFields c f).oid = f.oid := rfl

/-- ERP1 slices an originator id wherever it does not turn the region away (45_erp1.md R204). -/
theorem erp1Prepare_originator {c : Config} {f : Telegram} (h : (erp1Prepare c f).2 = none) :
    ∃ id, (erp1Prepare c f).1.oid = some id := by
  unfold erp1Prepare at h ⊢
  dsimp only at h ⊢
  split at h
  case isTrue hlen => exact ⟨_, by rw [if_pos hlen]; rfl⟩
  case isFalse => cases h

/-- So does ERP2 (44_erp2.md R184). -/
theorem erp2Rest_originator {c : Config} {f : Telegram} (h : (erp2Rest c f).2 = none) :
    ∃ id, (erp2Rest c f).1.oid = some id := by
  rcases erp2Guard_cases c (dataBytes f) with ⟨w, hguard, -⟩ | ⟨row, hguard, -⟩
  · rw [erp2Rest_error hguard] at h
    cases h
  · exact ⟨_, by rw [erp2Rest_ok hguard]; rfl⟩

/-- A telegram that no guard turns away has an originator. -/
theorem rowPrepare_originator {c : Config} {f : Telegram} (h : (rowPrepare c f).2 = none) :
    ∃ id, (rowPrepare c f).1.oid = some id := by
  unfold rowPrepare at h ⊢
  split at h
  case isTrue h2 =>
    rw [if_pos h2]
    exact erp2Rest_originator h
  case isFalse h2 =>
    rw [if_neg h2]
    split at h
    case isTrue h1 =>
      rw [if_pos h1]
      exact erp1Prepare_originator h
    case isFalse => cases h

/-- The end of a radio decode looks one id up, the record's, and none for the opaque result. -/
theorem endRadio_congr (c : Config) {reg reg' : List RegDevice} {p : Telegram × Option Reason}
    (horiginator : p.2 = none → ∃ id, p.1.oid = some id)
    (hagree : ∀ i, (endRadio c reg p).oid = some i → regLookup reg' i = regLookup reg i) :
    endRadio c reg' p = endRadio c reg p := by
  cases hend : p.2 with
  | some w => rw [endRadio_turnedAway hend, endRadio_turnedAway hend]
  | none =>
    obtain ⟨id, hid⟩ := horiginator hend
    rw [endRadio_sliced hend, oid_finishRadio, hid] at hagree
    rw [endRadio_sliced hend, endRadio_sliced hend, hid, Option.getD_some, hagree id rfl]

/-- Settles O53: what comes before the end of the radio decode and after it does not read the registry. -/
theorem recordDependsOnOneRegistryEntry : Obligations.RecordDependsOnOneRegistryEntry := by
  intro cfg reg reg' frame r hdec hagree
  rw [decodeFrame_eq] at hdec ⊢
  split at hdec
  case isFalse => cases hdec
  case isTrue hok =>
    obtain rfl := Option.some.inj hdec
    have hend := endRadio_congr cfg (p := rowPrepare cfg (startFields cfg frame)) rowPrepare_originator hagree
    rw [if_pos hok, recordOf, hend, recordOf]

end Sys2Proof.Machine
end

section
/-! PROOFS. The ERP1 decoder (spec/45_erp1.md): its slices, its Teach-In operations with the layouts of spec/30_encoding.md R98 and R100,
and `ERP1.DECODE`. -/

namespace Sys2Proof.Machine

/-- Settles O34: the length test of `ERP1.SHORT`, which `ERP1.DECODE` runs once `CRCSUB_OK` is cleared. -/
theorem erp1ShortIsOpaque : Obligations.Erp1ShortIsOpaque :=
  fun _ h => ⟨if_pos h, execErp1Decode_short (not_le.2 h)⟩

/-! Fields as bits: the extractors in the terms of bit vectors. -/

theorem bfField_eq_extractLsb' (b : Byte) (hi lo : Nat) : bfField b hi lo = (b.extractLsb' lo (hi - lo + 1)).toNat := by
  rw [BitVec.extractLsb'_toNat, bfField]

/-- `CAT` is the concatenation. -/
theorem bfCat_toNat {v w : Nat} (x : BitVec v) (y : BitVec w) : bfCat x.toNat y.toNat w = (x ++ y).toNat := by
  rw [BitVec.toNat_append, ← Nat.shiftLeft_add_eq_or_of_lt y.isLt, Nat.shiftLeft_eq, bfCat]

/-- The profile code is the concatenation of its bytes (R94). -/
theorem eepOf_toNat (r f t : Byte) : eepOf r.toNat f.toNat t.toNat = r ++ f ++ t := by
  rw [eepOf, bfCat_toNat, bfCat_toNat, BitVec.ofNat_toNat, BitVec.setWidth_eq]

theorem extract_singleton (payload : Bytes) (i hi lo : Nat) :
    extract payload [⟨i, hi, lo⟩] = bfField (byteAt payload i) hi lo := by
  simp only [extract, List.foldl, bfCat, Nat.zero_mul, Nat.zero_add]

theorem extract_pair (payload : Bytes) (q : BitRange) (i hi lo : Nat) :
    extract payload [q, ⟨i, hi, lo⟩] = bfCat (extract payload [q]) (bfField (byteAt payload i) hi lo) (hi - lo + 1) := rfl

theorem extract_bits (payload : Bytes) (i hi lo : Nat) :
    extract payload [⟨i, hi, lo⟩] = ((byteAt payload i).extractLsb' lo (hi - lo + 1)).toNat := by
  rw [extract_singleton, bfField_eq_extractLsb']

theorem extract_byte (payload : Bytes) (i : Nat) : extract payload [⟨i, 7, 0⟩] = (byteAt payload i).toNat := by
  rw [extract_singleton, bfField_whole]

/-- The manufacturer, in both default layouts: three bits of one byte above another byte (30_encoding.md R98, R100). -/
theorem extract_manuf (payload : Bytes) (i j : Nat) :
    BitVec.ofNat 11 (extract payload [⟨i, 2, 0⟩, ⟨j, 7, 0⟩]) = (byteAt payload i).extractLsb' 0 3 ++ byteAt payload j := by
  rw [extract_pair, extract_bits, bfField_whole, bfCat_toNat, BitVec.ofNat_toNat, BitVec.setWidth_eq]

theorem toNat_zero_append {v w : Nat} (x : BitVec w) : (0#v ++ x).toNat = x.toNat := by
  rw [← bfCat_toNat, bfCat, BitVec.toNat_ofNat, Nat.zero_mod, Nat.zero_mul, Nat.zero_add]

/-! The slices. -/

/-- The trailer is read from the end of the region, and Data_DL stands between the RORG byte and it (45_erp1.md R202 to R205). -/
theorem erp1Slices_eq {oid : Bytes} (hoid : oid.length = 4) (rorg status : Byte) (dl : Bytes) (f : Telegram) :
    erp1Slices (rorg :: (dl ++ (oid ++ [status]))) f =
      { f with
        rorg := some rorg
        status := some status
        rpt := some (status.extractLsb' 0 4)
        oid := some (BitVec.ofNat 48 (bigEndian oid))
        oidw := some .w4
        did := none
        dl := some ⟨f.data.off + 1, dl.length⟩ } := by
  have hlen : (rorg :: (dl ++ (oid ++ [status]))).length = dl.length + 6 := by
    simp only [List.length_cons, List.length_append, List.length_nil]
    omega
  have hstatus : byteAt (rorg :: (dl ++ (oid ++ [status]))) (dl.length + 6 - 1) = status := by
    have hlast := byteAt_append_add (rorg :: (dl ++ oid)) [status] 0
    rw [List.cons_append, List.append_assoc, List.length_cons, List.length_append, hoid] at hlast
    exact hlast
  have horiginator : bfSlice (rorg :: (dl ++ (oid ++ [status]))) (dl.length + 6 - 5) (dl.length + 6 - 1) = oid := by
    have hcut := bfSlice_append_append (rorg :: dl) oid [status]
    rw [List.length_cons, hoid] at hcut
    exact hcut
  have hrpt : BitVec.ofNat 4 (bfField status 3 0) = status.extractLsb' 0 4 := headerTt_eq_extractLsb' status
  rw [bigEndian_eq_bytesValue, erp1Slices, hlen, hstatus, hrpt, horiginator, bfIdnorm]
  rfl

section
variable {f : Telegram} {rorg status : Byte} {dl oid : Bytes} (hd : dataBytes f = rorg :: (dl ++ (oid ++ [status])))
  (hoid : oid.length = 4)
include hd hoid

/-- A byte of Data_DL and the six others make the seven that ERP1 asks for (45_erp1.md R201). -/
theorem erp1_seven_le (hne : dl ≠ []) : 7 ≤ (dataBytes f).length := by
  have hpos := List.length_pos_iff.2 hne
  simp only [hd, List.length_cons, List.length_append, List.length_nil]
  omega

theorem dlBytes_erp1Slices : dlBytes (erp1Slices (dataBytes f) f) = dl := by
  have hroom : 1 + dl.length ≤ f.data.len := by
    simp only [← dataBytes_length, hd, List.length_cons, List.length_append, List.length_nil]
    omega
  have hcut := bfSlice_append_append [rorg] dl (oid ++ [status])
  rw [List.singleton_append, ← hd] at hcut
  have hdl : (erp1Slices (dataBytes f) f).dl = some ⟨(erp1Slices (dataBytes f) f).data.off + 1, dl.length⟩ := by
    rw [hd, erp1Slices_eq hoid]
  exact (dlBytes_eq_bfSlice hdl hroom).trans hcut

end

/-- Settles O35: the region is long enough, and its slices are `erp1Slices_eq`. -/
theorem erp1FieldsSliceTheTrailer : Obligations.Erp1FieldsSliceTheTrailer := by
  intro s rorg status dl oid hd hoid hne
  show execErp1Fields s = _
  rw [execErp1Fields_long (erp1_seven_le hd hoid hne), hd, erp1Slices_eq hoid]
  rfl

/-! `ERP1.DECODE`. -/

/-- Settles O38: the slices, the Teach-In of the RORG byte over the Data_DL sliced, and the end of the radio decode. -/
theorem erp1DecodeFillsEveryRegister : Obligations.Erp1DecodeFillsEveryRegister := by
  intro s rorg status dl oid hd hoid hne
  refine ⟨_, erp1TeachIn s.cfg rorg dl, _, rfl, rfl, rfl, ?_, ?_⟩
  · intro x hx
    rw [hx, frameReport_teachIn, teachInMap, List.append_assoc]
  · obtain ⟨f, g, id, hf, hg, hid, hexec⟩ := execErp1Decode_long (erp1_seven_le hd hoid hne)
    have hdl : dlBytes f = dl := hf ▸ dlBytes_erp1Slices (f := { s.fields with crcsubOk := none }) hd hoid
    rw [hd, erp1Slices_eq hoid] at hf
    rw [hf] at hid
    rw [hdl, hd] at hg
    have hdlBytes : dlBytes g = dl := hg ▸ hdl
    show execErp1Decode s = _
    rw [hexec, finishRadio_eq _ _ _ (by rw [hg]; rfl), hdlBytes, hg, hf, hid]
    rfl

/-! `TEACHIN_4BS` (30_encoding.md R98). -/

theorem teachIn4bs_of_length_ne (t : Teachin4bs) {payload : Bytes} (h : payload.length ≠ 4) : teachIn4bs t payload = none :=
  if_neg fun hn => h hn.1

/-- Four bytes with the learn bit clear yield what the parameter says. -/
theorem teachIn4bs_learn (t : Teachin4bs) {b3 b2 b1 b0 : Byte} (h : b0.getLsbD 3 = false) :
    teachIn4bs t [b3, b2, b1, b0] =
      some ⟨(yield4bs t [b3, b2, b1, b0]).eep, (yield4bs t [b3, b2, b1, b0]).manuf, none⟩ := by
  have hbit : bfBit b0 3 = 0 := by rw [bfBit_eq, h]; rfl
  exact if_pos ⟨rfl, hbit⟩

/-- The default layout, bit by bit. -/
theorem yield4bs_default (b3 b2 b1 b0 : Byte) :
    yield4bs configDefault.teachin4bs [b3, b2, b1, b0] =
      if b0.getLsbD 7 then
        ⟨some (0xA5#8 ++ (0#2 ++ b3.extractLsb' 2 6) ++ (0#1 ++ (b3.extractLsb' 0 2 ++ b2.extractLsb' 3 5))),
         some (b2.extractLsb' 0 3 ++ b1)⟩
      else ⟨none, none⟩ := by
  have hfunc : extract [b3, b2, b1, b0] [⟨0, 7, 2⟩] = (0#2 ++ b3.extractLsb' 2 6).toNat :=
    (extract_bits _ 0 7 2).trans (toNat_zero_append _).symm
  have htype : extract [b3, b2, b1, b0] [⟨0, 1, 0⟩, ⟨1, 7, 3⟩] =
      (0#1 ++ (b3.extractLsb' 0 2 ++ b2.extractLsb' 3 5)).toNat := by
    rw [toNat_zero_append, ← bfCat_toNat, extract_pair, extract_bits, bfField_eq_extractLsb']
    rfl
  have heep : eepOf rorg4bs.toNat (extract [b3, b2, b1, b0] [⟨0, 7, 2⟩]) (extract [b3, b2, b1, b0] [⟨0, 1, 0⟩, ⟨1, 7, 3⟩]) =
      0xA5#8 ++ (0#2 ++ b3.extractLsb' 2 6) ++ (0#1 ++ (b3.extractLsb' 0 2 ++ b2.extractLsb' 3 5)) := by
    rw [hfunc, htype]
    exact eepOf_toNat _ _ _
  have hlrn : extract [b3, b2, b1, b0] [⟨3, 7, 7⟩] = if b0.getLsbD 7 then 1 else 0 := by
    rw [extract_singleton, bfField_self, bfBit_eq_ite]
    rfl
  have hmanuf := extract_manuf [b3, b2, b1, b0] 1 2
  unfold yield4bs configDefault layout4bsDefault
  dsimp only
  rw [heep, hlrn, hmanuf]
  cases b0.getLsbD 7 <;> rfl

/-! `TEACHIN_UTE` (30_encoding.md R100). -/

theorem teachInUte_eq_none_iff (t : TeachinUte) (payload : Bytes) : teachInUte t payload = none ↔ payload.length ≠ 7 := by
  unfold teachInUte
  split
  case isTrue h => exact ⟨fun hn => absurd hn (Option.some_ne_none _), fun hn => absurd h hn⟩
  case isFalse h => exact ⟨fun _ => h, fun _ => rfl⟩

/-- Seven bytes yield what the parameter says. -/
theorem teachInUte_seven (t : TeachinUte) {payload : Bytes} (h : payload.length = 7) :
    teachInUte t payload =
      some ⟨some (yieldUte t payload).eep, some (yieldUte t payload).manuf, some (yieldUte t payload).ute⟩ := if_pos h

/-- The default layout, bit by bit. -/
theorem yieldUte_default (p0 p1 p2 p3 p4 p5 p6 : Byte) :
    yieldUte configDefault.teachinUte [p0, p1, p2, p3, p4, p5, p6] =
      ⟨p6 ++ p5 ++ p4, p3.extractLsb' 0 3 ++ p2,
        ⟨(p0.extractLsb' 7 1).toNat, (p0.extractLsb' 6 1).toNat, (p0.extractLsb' 4 2).toNat, (p0.extractLsb' 0 4).toNat,
          p1.toNat⟩⟩ := by
  unfold yieldUte configDefault layoutUteDefault
  dsimp only
  rw [extract_byte, extract_byte, extract_byte, extract_byte, eepOf_toNat, extract_manuf, extract_bits, extract_bits, extract_bits,
    extract_bits]
  rfl

/-! The Teach-In operations. -/

/-- Where no Data_DL has been sliced a Teach-In operation finds no Teach-In. -/
theorem erp1Teach_unsliced (decoder : Bytes → Option TeachIn) {s : State} (hdl : s.fields.dl = none) :
    erp1Teach decoder s = .next { s with fields := { s.fields with ti := none, manuf := none } } := by
  rw [erp1Teach_eq, if_pos hdl]
  rfl

theorem erp1Teach_sliced (decoder : Bytes → Option TeachIn) {s : State} {sl : Slice} (hdl : s.fields.dl = some sl) :
    erp1Teach decoder s =
      .next { s with
        fields := { s.fields with
          ti := decoder (dlBytes s.fields), manuf := (decoder (dlBytes s.fields)).bind TeachIn.manuf } } := by
  rw [erp1Teach_eq, if_neg (hdl ▸ Option.some_ne_none sl)]
  rfl

/-- The stub finds no Teach-In in any state (45_erp1.md R207). -/
theorem erp1Teach_never (s : State) :
    erp1Teach (fun _ => none) s = .next { s with fields := { s.fields with ti := none, manuf := none } } := by
  rw [erp1Teach_eq, ite_self]
  rfl

/-- Settles O36: the length and the learn bit decide, and what is yielded is the layout's or the written-out function's. -/
theorem erp1Ti4bsReadsTheTeachIn : Obligations.Erp1Ti4bsReadsTheTeachIn := by
  intro s
  refine ⟨erp1Teach_unsliced _, fun sl hdl => ⟨_, erp1Teach_sliced _ hdl, teachIn4bs_of_length_ne _, fun b3 b2 b1 b0 hbytes => ?_⟩⟩
  rw [hbytes]
  obtain ⟨hclear, hset⟩ := teachIn4bs_four s.cfg.teachin4bs b3 b2 b1 b0
  refine ⟨hset, hclear, fun hb hdefault => ?_, fun rows others hb htable => ⟨_, lookupPayload_eq rows others _, ?_⟩⟩
  · rw [teachIn4bs_learn _ hb, hdefault, yield4bs_default]
    cases b0.getLsbD 7 <;> rfl
  · rw [teachIn4bs_learn _ hb, htable]
    rfl

/-- Settles O37: the length decides, and what is yielded is the layout's or the written-out function's; the stubs decode nothing. -/
theorem erp1TiuteAndTheRorgsWithoutTeachIn : Obligations.Erp1TiuteAndTheRorgsWithoutTeachIn := by
  intro s
  refine ⟨erp1Teach_unsliced _, fun sl hdl => ⟨_, erp1Teach_sliced _ hdl, teachInUte_eq_none_iff _ _, ?_⟩, erp1Teach_never s,
    fun _ => erp1Teach_never s⟩
  intro p0 p1 p2 p3 p4 p5 p6 hbytes
  rw [hbytes, teachInUte_seven _ rfl]
  refine ⟨fun hdefault => ?_, fun rows others htable => ⟨_, lookupPayload_eq rows others _, ?_⟩⟩
  · rw [hdefault, yieldUte_default]
  · rw [htable]
    rfl

end Sys2Proof.Machine
end

section
/-! PROOFS. The payload dispatch (spec/46_eep_dispatch.md R223 to R225) and the Reports of the two profiles that the spec defines
(spec/47_profiles.md R241, R244). -/

namespace Sys2Proof.Machine

/-! The rows of `PROFILE_TABLE` (R221). -/

theorem profileFind_eq_none_iff (table : List ProfileRow) (c : Eep) :
    profileFind table c = none ↔ ∀ row ∈ table, row.code ≠ c := by
  simp [profileFind]

theorem exists_profileFind {table : List ProfileRow} {c : Eep} (h : ∃ row ∈ table, row.code = c) :
    ∃ row, profileFind table c = some row := by
  obtain ⟨row, hmem, hcode⟩ := h
  refine Option.ne_none_iff_exists'.1 fun hnone => ?_
  exact (profileFind_eq_none_iff table c).1 hnone row hmem hcode

/-- A code that no row has, or none, selects no row. -/
theorem bind_profileFind_eq_none {table : List ProfileRow} {code : Option Eep}
    (h : ∀ c, code = some c → ∀ row ∈ table, row.code ≠ c) : code.bind (profileFind table) = none := by
  cases code with
  | none => rfl
  | some c => exact (profileFind_eq_none_iff table c).2 (h c rfl)

/-! Membership (R224). -/

theorem isKnown_iff (table : List ProfileRow) (e : Option Eep) :
    isKnown table e = true ↔ ∃ row ∈ table, e = some row.code := by
  cases e with
  | none => simp [isKnown]
  | some c => simp [isKnown, eq_comm (a := c)]

theorem isKnownText_iff (table : List ProfileRow) (t : Text) :
    isKnownText table t = true ↔ ∃ row ∈ table, t = canonicalEep row.code := by
  simp [isKnownText, eq_comm (a := t)]

/-- Settles O42: both tests look through the rows of the table. -/
theorem eepIsknownIsMembership : Obligations.EepIsknownIsMembership := by
  intro s e t
  have hcode := Bool.eq_iff_iff.2 ((isKnown_iff s.cfg.profileTable e).trans decide_eq_true_iff.symm)
  have htext := Bool.eq_iff_iff.2 ((isKnownText_iff s.cfg.profileTable t).trans decide_eq_true_iff.symm)
  rw [← hcode, ← htext]
  exact ⟨rfl, rfl⟩

/-! The Reports of the profiles (47_profiles.md R241, R244, R248). -/

@[simp] theorem profileReport_raw (digits : Nat) (dec : ProfileDec) (payload : Bytes) :
    (profileReport digits dec payload).raw = payload := by
  cases dec <;> rfl

/-- The learn flag of both profiles: bit 3 is clear (47_profiles.md R242). -/
theorem learn_eq_not_getLsbD (b : Byte) : decide (bfBit b 3 = 0) = !b.getLsbD 3 := by
  rw [bfBit_eq]
  cases b.getLsbD 3 <;> rfl

/-- The Report of a contact switch, by the bits of its byte. -/
theorem contactReport_singleton (b : Byte) :
    contactReport [b] =
      ⟨[(.contact, .raw (if b.getLsbD 0 then 1 else 0))], some (if b.getLsbD 0 then .closed else .opened), !b.getLsbD 3, [b]⟩ := by
  have hcontact := bfBit_eq b 0
  have hlearn := learn_eq_not_getLsbD b
  unfold contactReport
  simp only [byteAt, List.getD_cons_zero, hcontact, hlearn]
  cases b.getLsbD 0 <;> rfl

/-- The rounded temperature of a raw byte, as a number of `10 ^ -digits` (47_profiles.md R245). -/
def temperatureMantissa (digits : Nat) (raw : Byte) : Nat := (80 * (255 - raw.toNat) * 10 ^ digits + 255) / 510

/-- The mantissa is the nearest one: `m - 1/2 ≤ 40 * (255 - raw) / 255 * 10 ^ digits < m + 1/2`, cleared of fractions. -/
theorem temperatureMantissa_nearest (digits : Nat) (raw : Byte) :
    510 * temperatureMantissa digits raw ≤ 80 * (255 - raw.toNat) * 10 ^ digits + 255 ∧
    80 * (255 - raw.toNat) * 10 ^ digits + 255 < 510 * (temperatureMantissa digits raw + 1) :=
  ⟨Nat.mul_div_le _ _, Nat.lt_mul_div_succ _ (by decide)⟩

theorem roundDecimal_temperature (digits : Nat) (raw : Byte) :
    roundDecimal (40 * (255 - (raw.toNat : Int))) 255 digits = temperatureMantissa digits raw := by
  have hraw := raw.isLt
  have hnonneg : ¬ 40 * (255 - (raw.toNat : Int)) < 0 := by omega
  have habs : 2 * (40 * (255 - (raw.toNat : Int))).natAbs = 80 * (255 - raw.toNat) := by omega
  unfold roundDecimal temperatureMantissa
  rw [habs, if_neg hnonneg]

/-- The Report of a temperature sensor, by the two bytes that it reads. -/
theorem temperatureReport_four (digits : Nat) (b3 b2 b1 b0 : Byte) :
    temperatureReport digits [b3, b2, b1, b0] =
      ⟨[(.temperatureRaw, .raw b1.toNat),
          (.temperature, .measured (40 * (255 - b1.toNat)) 255 (temperatureMantissa digits b1) digits)],
        some (.temperature (temperatureMantissa digits b1) digits), !b0.getLsbD 3, [b3, b2, b1, b0]⟩ := by
  rw [← roundDecimal_temperature, ← learn_eq_not_getLsbD]
  rfl

/-! The dispatch (R223): what it gives in each of its outcomes, and what the operation writes. -/

theorem exec_eepDecode_code (e : Option Eep) (payload : Bytes) (s : State) :
    exec (.eepDecode (.code e) payload) s =
      .next { s with
        fields := { s.fields with
          report := (dispatch s.cfg e payload).1, reason := withReason (dispatch s.cfg e payload).2 s.fields.reason }
        fnOut := some (.report (dispatch s.cfg e payload).1 (dispatch s.cfg e payload).2) } := by
  rw [← setReport_eq]
  rfl

theorem dispatch_unregistered {cfg : Config} {c : Eep} (h : ∀ row ∈ cfg.profileTable, row.code ≠ c) (payload : Bytes) :
    dispatch cfg (some c) payload = (unknownReport payload, some .eepUnregistered) := by
  have hnone := (profileFind_eq_none_iff cfg.profileTable c).2 h
  simp only [dispatch, hnone]

theorem dispatch_of_profileFind {cfg : Config} {c : Eep} {row : ProfileRow} (h : profileFind cfg.profileTable c = some row)
    (payload : Bytes) : dispatch cfg (some c) payload = rowReport cfg.valueDigits row payload := by
  simp only [dispatch, h]

/-- Settles O40: the outcomes of the dispatch in the order of its tests, and the decoder of the entry by its tag. -/
theorem eepDecodeTestsInOrder : Obligations.EepDecodeTestsInOrder := by
  intro s e payload
  refine ⟨(dispatch s.cfg e payload).1, (dispatch s.cfg e payload).2, exec_eepDecode_code e payload s, ?absent, ?present⟩
  case absent =>
    rintro rfl
    exact ⟨rfl, rfl⟩
  case present =>
    rintro c rfl
    refine ⟨fun hrows => ?unregistered, fun row hfind => ?registered⟩
    case unregistered =>
      rw [dispatch_unregistered hrows]
      exact ⟨rfl, rfl⟩
    case registered =>
      rw [dispatch_of_profileFind hfind]
      refine ⟨fun hlen => ?_, fun hlen => ?_⟩
      · rw [rowReport, if_neg hlen]
        exact ⟨rfl, rfl⟩
      · rw [rowReport, if_pos hlen]
        refine ⟨rfl, profileReport_raw _ _ _, ?contact, ?temperature, ?other⟩
        case contact =>
          rintro b rfl hdec
          rw [hdec]
          exact contactReport_singleton b
        case temperature =>
          rintro b3 b2 b1 b0 rfl hdec
          rw [hdec]
          exact ⟨_, temperatureReport_four _ b3 b2 b1 b0, temperatureMantissa_nearest _ b1⟩
        case other =>
          intro k hdec
          rw [hdec]
          rfl

/-! The rows run on the frame's Data_DL (R225, 30_encoding.md R95). -/

theorem exec_eepUnknown_default {s : State} {code : Option Eep} (h : code.bind (profileFind s.cfg.profileTable) = none) :
    exec (.eepUnknown code) s = .next (runRow (fun payload => (unknownReport payload, none)) none s) := by
  simp only [exec, execEepUnknown, h]

theorem exec_eepUnknown_entry {s : State} {c : Eep} {row : ProfileRow} (h : profileFind s.cfg.profileTable c = some row) :
    exec (.eepUnknown (some c)) s = .next (runEntry row s) := by
  simp only [exec, execEepUnknown, Option.bind_some, h]

/-- The row of an entry where no Data_DL has been sliced (assumptions 26, 29). -/
theorem runEntry_unsliced (row : ProfileRow) {s : State} (hdl : s.fields.dl = none) :
    runEntry row s =
      { s with
        fields := { s.fields with
          report := unknownReport (Config.absentPayload s.freeCount), reason := withReason (some .eepLength) s.fields.reason }
        freeCount := s.freeCount + 1 } := by
  rw [← setReport_eq]
  exact runRow_none _ _ s hdl

/-- The row of an entry on the sliced Data_DL writes what the dispatch on the entry's code writes. -/
theorem runEntry_sliced {c : Eep} {row : ProfileRow} {s : State} {sl : Slice} (hfind : profileFind s.cfg.profileTable c = some row)
    (hdl : s.fields.dl = some sl) :
    runEntry row s = { s with fields := (runDispatch (some c) (dlBytes s.fields) s).fields } := by
  have hrun : (runDispatch (some c) (dlBytes s.fields) s).fields =
      setReport (rowReport s.cfg.valueDigits row (dlBytes s.fields)).1
        (rowReport s.cfg.valueDigits row (dlBytes s.fields)).2 s.fields := by
    rw [← dispatch_of_profileFind hfind]
    rfl
  rw [hrun]
  exact runRow_some _ _ s sl hdl

/-- Settles O45: a key outside the table runs the default row, one of the table the row of its entry. -/
theorem eepUnknownKeepsTheRawBytes : Obligations.EepUnknownKeepsTheRawBytes := by
  intro s code
  refine ⟨fun hrows => ?unheld, fun c hcode hheld => ?held⟩
  case unheld =>
    rw [exec_eepUnknown_default (bind_profileFind_eq_none hrows)]
    exact ⟨fun sl hdl => congrArg _ (runRow_some _ _ s sl hdl), fun hdl => ⟨_, congrArg _ (runRow_none _ _ s hdl)⟩⟩
  case held =>
    obtain ⟨row, hfind⟩ := exists_profileFind hheld
    rw [hcode, exec_eepUnknown_entry hfind]
    exact ⟨fun sl hdl => ⟨_, rfl, congrArg _ (runEntry_sliced hfind hdl)⟩,
      fun hdl => ⟨_, congrArg _ (runEntry_unsliced row hdl)⟩⟩

end Sys2Proof.Machine
end

section
/-! PROOFS. The two rows of the dispatch that the spec gives in full, run on the frame's Data_DL (spec/47_profiles.md R241 to R245). -/

namespace Sys2Proof.Machine

/-- The row of an entry on a Data_DL of the row's length: `REPORT` alone is written. -/
theorem runEntry_of_length_eq {row : ProfileRow} {s : State} {sl : Slice} (hdl : s.fields.dl = some sl)
    (hlen : (dlBytes s.fields).length = row.len) :
    runEntry row s =
      { s with fields := { s.fields with report := profileReport s.cfg.valueDigits row.dec (dlBytes s.fields) } } := by
  have hrow : rowReport s.cfg.valueDigits row (dlBytes s.fields) =
      (profileReport s.cfg.valueDigits row.dec (dlBytes s.fields), none) := if_pos hlen
  rw [runEntry, runRow_some _ _ s sl hdl, hrow]
  rfl

/-- The row of an entry on a Data_DL of another length (46_eep_dispatch.md R227; assumption 26). -/
theorem runEntry_of_length_ne {row : ProfileRow} {s : State} {sl : Slice} (hdl : s.fields.dl = some sl)
    (hlen : (dlBytes s.fields).length ≠ row.len) :
    runEntry row s =
      { s with
        fields := { s.fields with
          report := unknownReport (dlBytes s.fields), reason := withReason (some .eepLength) s.fields.reason } } := by
  have hrow : rowReport s.cfg.valueDigits row (dlBytes s.fields) = (unknownReport (dlBytes s.fields), some .eepLength) :=
    if_neg hlen
  rw [runEntry, runRow_some _ _ s sl hdl, hrow, ← setReport_eq]
  rfl

theorem exec_eepD50001 (s : State) : exec .eepD50001 s = .next (runEntry ⟨codeD50001, 1, .contactSwitch⟩ s) := rfl

theorem exec_eepA50205 (s : State) : exec .eepA50205 s = .next (runEntry ⟨codeA50205, 4, .temperature⟩ s) := rfl

/-- One digit: the common factor 5 of the fraction cancels, which leaves the formula of R245. -/
theorem temperatureMantissa_one (raw : Byte) : temperatureMantissa 1 raw = (160 * (255 - raw.toNat) + 51) / 102 := by
  have hfactor : 80 * (255 - raw.toNat) * 10 ^ 1 + 255 = 5 * (160 * (255 - raw.toNat) + 51) := by omega
  rw [temperatureMantissa, hfactor]
  exact Nat.mul_div_mul_left _ 102 (by decide)

/-- Settles O44: the length decides, and four bytes give the Report of the temperature sensor with its nearest mantissa. -/
theorem eepA50205ReadsTheTemperature : Obligations.EepA50205ReadsTheTemperature := by
  intro s
  rw [exec_eepA50205]
  refine ⟨fun sl b3 b2 b1 b0 hdl hbytes => ?four, fun sl hdl hlen => congrArg _ (runEntry_of_length_ne hdl hlen),
    fun hdl => ⟨_, congrArg _ (runEntry_unsliced _ hdl)⟩⟩
  case four =>
    refine ⟨temperatureMantissa s.cfg.valueDigits b1, ?report, temperatureMantissa_nearest _ b1, fun hdigits => ?oneDigit⟩
    case report =>
      rw [runEntry_of_length_eq hdl (by rw [hbytes]; rfl), hbytes, ← temperatureReport_four]
      rfl
    case oneDigit =>
      rw [hdigits]
      exact temperatureMantissa_one b1

/-- Settles O43: the length decides, and one byte gives the Report of the contact switch. -/
theorem eepD50001ReadsContactAndLearn : Obligations.EepD50001ReadsContactAndLearn := by
  intro s
  rw [exec_eepD50001]
  refine ⟨fun sl b hdl hbytes => ?one, fun sl hdl hlen => congrArg _ (runEntry_of_length_ne hdl hlen),
    fun hdl => ⟨_, congrArg _ (runEntry_unsliced _ hdl)⟩⟩
  case one =>
    rw [runEntry_of_length_eq hdl (by rw [hbytes]; rfl), hbytes, ← contactReport_singleton]
    rfl

end Sys2Proof.Machine
end

section
/-! PROOFS. The step at a call of a host interface (spec/60_exceptions.md R280, R281): a valid teach call or name update writes one record
of the registry, every other call its answer only. -/

namespace Sys2Proof.Machine

/-! The tests of the host interfaces. -/

theorem textFits_iff (t : Option Text) : textFits t = true ↔ ∀ n, t = some n → n.length ≤ 50 := by
  cases t <;> simp [textFits]

theorem not_textFits {t : Option Text} (h : ∃ n, t = some n ∧ 50 < n.length) : ¬ textFits t = true := by
  obtain ⟨n, hn, hlong⟩ := h
  exact fun hfits => absurd ((textFits_iff t).1 hfits n hn) (not_le.2 hlong)

/-- A record stands under its own id. -/
theorem id_of_regLookup {ds : List RegDevice} {i : Id48} {d : RegDevice} (h : regLookup ds i = some d) : d.id = i := by
  induction ds with
  | nil => cases h
  | cons e ds ih =>
    rw [regLookup] at h
    split at h
    case isTrue hid => exact Option.some.inj h ▸ hid
    case isFalse => exact ih h

/-! The calls, by the outcome of their tests. -/

section
variable {s : State} {rest : List Input}

theorem step_teach {req : TeachReq} (hin : s.input = .teach req :: rest) : step s = .next (teach req { s with input := rest }) := by
  rw [step_eq, hin, ← takeInput_eq hin]

theorem step_rename {id : Text} {name : Option Text} (hin : s.input = .rename id name :: rest) :
    step s = .next (rename id name { s with input := rest }) := by
  rw [step_eq, hin, ← takeInput_eq hin]

theorem step_get {id : Text} (hin : s.input = .get id :: rest) : step s = .next (getDevice id { s with input := rest }) := by
  rw [step_eq, hin, ← takeInput_eq hin]

theorem step_getAll (hin : s.input = .getAll :: rest) : step s = .next (getAll { s with input := rest }) := by
  rw [step_eq, hin, ← takeInput_eq hin]

end

section
variable (s : State)

theorem teach_valid {req : TeachReq} {k : Id48} {e : Eep} (hid : normId req.id = some k) (heep : teachEep req.eep = some e)
    (hname : textFits req.name = true) (hmaker : textFits req.manufacturer = true) :
    teach req s = storeDevice ⟨k, e, req.name, req.manufacturer, true⟩ s := by
  simp only [teach, hid, heep, if_pos hname, if_pos hmaker]

/-- A teach call that fails one of its tests answers the error of the first that it fails. -/
theorem teach_invalid {req : TeachReq}
    (h : normId req.id = none ∨ teachEep req.eep = none ∨ ¬ textFits req.name = true ∨ ¬ textFits req.manufacturer = true) :
    ∃ err, teach req s = replyHost s (.invalid err) := by
  unfold teach
  split
  case h_1 => exact ⟨_, rfl⟩
  case h_2 k hid =>
    split
    case h_1 => exact ⟨_, rfl⟩
    case h_2 e heep =>
      split
      case isFalse => exact ⟨_, rfl⟩
      case isTrue hname =>
        split
        case isFalse => exact ⟨_, rfl⟩
        case isTrue hmaker => simp [hid, heep, hname, hmaker] at h

theorem rename_valid {id : Text} {name : Option Text} {k : Id48} {d : RegDevice} (hid : normId id = some k)
    (hname : textFits name = true) (hd : regLookup s.reg k = some d) :
    rename id name s = storeDevice { d with name := name } s := by
  simp only [rename, hid, if_pos hname, hd]

/-- A name update that fails one of its tests answers the error of the first that it fails. -/
theorem rename_invalid {id : Text} {name : Option Text}
    (h : normId id = none ∨ ¬ textFits name = true ∨ ∃ k, normId id = some k ∧ regLookup s.reg k = none) :
    ∃ err, rename id name s = replyHost s (.invalid err) := by
  unfold rename
  split
  case h_1 => exact ⟨_, rfl⟩
  case h_2 k hid =>
    split
    case isFalse => exact ⟨_, rfl⟩
    case isTrue hname =>
      split
      case h_1 => exact ⟨_, rfl⟩
      case h_2 d hd => simp [hid, hname, hd] at h

theorem getDevice_valid {id : Text} {k : Id48} (hid : normId id = some k) :
    getDevice id s = replyHost s (.found (regLookup s.reg k)) := by
  simp only [getDevice, hid]

theorem getDevice_invalid {id : Text} (hid : normId id = none) : getDevice id s = replyHost s (.invalid .id) := by
  simp only [getDevice, hid]

end

/-- Settles O47, call by call: one that passes its tests stores under the id of its record or reads the registry, one that fails a test
answers an error. -/
theorem hostInterfacesWriteOneRecord : Obligations.HostInterfacesWriteOneRecord := by
  intro s rest
  refine ⟨?teach, ?teachError, ?get, ?getError, ?getAll, ?rename, ?renameError⟩
  case teach =>
    intro req k e hin hid heep hname hmaker
    have hteach := teach_valid { s with input := rest } hid heep ((textFits_iff _).2 hname) ((textFits_iff _).2 hmaker)
    exact ⟨_, (step_teach hin).trans (congrArg _ hteach), regLookup_regInsert _ s.reg⟩
  case teachError =>
    intro req hin hbad
    obtain ⟨err, herr⟩ := teach_invalid { s with input := rest }
      (hbad.imp_right (Or.imp_right (Or.imp not_textFits not_textFits)))
    exact ⟨err, (step_teach hin).trans (congrArg _ herr)⟩
  case get => exact fun id k hin hid => (step_get hin).trans (congrArg _ (getDevice_valid _ hid))
  case getError => exact fun id hin hid => (step_get hin).trans (congrArg _ (getDevice_invalid _ hid))
  case getAll => exact fun hin => step_getAll hin
  case rename =>
    intro id k name d hin hid hname hd
    have hrename := rename_valid { s with input := rest } hid ((textFits_iff _).2 hname) hd
    refine ⟨_, (step_rename hin).trans (congrArg _ hrename), fun i => ?_⟩
    rw [regLookup_regInsert, ← id_of_regLookup hd]
  case renameError =>
    intro id name hin hbad
    obtain ⟨err, herr⟩ := rename_invalid { s with input := rest } (hbad.imp_right (Or.imp_left not_textFits))
    exact ⟨err, (step_rename hin).trans (congrArg _ herr)⟩

end Sys2Proof.Machine
end

section
/-! PROOFS. What a step does to the surroundings and to `TEL_OUT` (spec/60_exceptions.md R263, R270 to R272): no chunk stops the machine,
and events come in pairs. -/

namespace Sys2Proof.Machine

/-- What the operations of a chunk step may do once the chunk is taken: the surroundings and the inputs stay, and `TEL_OUT` gains nothing
or the two events of one record. -/
structure ChunkEffect (s t : State) : Prop where
  surroundings : SameSurroundings s t
  input : t.input = s.input
  events : t.telOut = s.telOut ∨ ∃ r, t.telOut = s.telOut ++ eventsOf r

theorem ChunkEffect.refl (s : State) : ChunkEffect s s := ⟨⟨rfl, rfl, rfl, rfl⟩, rfl, .inl rfl⟩

/-- The hand-over emits the two events of the record that it decodes. -/
theorem handOff_effect {frame : Bytes} {s t : State} (ht : handOff frame s = .next t) : ChunkEffect s t := by
  obtain ⟨u, hu, rfl⟩ := (handOff_eq_next frame s t).1 ht
  obtain ⟨f, q, hrun, -⟩ := execEsp3Decode_runs (s.setFields { blankTelegram with frame := frame })
  obtain rfl := Host.Outcome.next.inj (hrun.symm.trans hu)
  exact ⟨⟨rfl, rfl, rfl, rfl⟩, rfl, .inr ⟨f, rfl⟩⟩

theorem execRsmEmit_effect {s t : State} {v : Nat} (h6 : 6 < s.flen) (hv : vlen s = some v) (hlen : s.flen = v)
    (ht : execRsmEmit s = .next t) : ChunkEffect s t := by
  rw [execRsmEmit_of_vlen h6 hv, if_pos hlen] at ht
  split at ht
  case h_1 => cases ht
  case h_2 => exact handOff_effect ht

theorem lengthTest_effect {s t : State} (ht : lengthTest s = .next t) : ChunkEffect s t := by
  rcases lengthTest_cases s with ⟨-, heq⟩ | ⟨-, -, heq⟩ | ⟨v, h6, hv, ⟨hlen, heq⟩ | ⟨hlt, -⟩ | ⟨-, heq⟩⟩
  · exact (next_iff _ _).1 (heq.symm.trans ht) ▸ .refl s
  · cases heq.symm.trans ht
  · exact execRsmEmit_effect h6 hv hlen (heq.symm.trans ht)
  · rw [lengthTest_overrun h6 hv hlt, exec_rsmOverrun_over h6 hv hlt] at ht
    obtain rfl := (next_iff _ _).1 ht
    exact ⟨⟨rfl, rfl, rfl, rfl⟩, rfl, .inl rfl⟩
  · exact (next_iff _ _).1 (heq.symm.trans ht) ▸ .refl s

/-- The effect of a chunk step, over every state: the chunk is taken, and then the Reassembler's operations run. -/
theorem execRsmStep_effect {s t : State} {c : Bytes} (hc : offeredChunk s = some c) (ht : execRsmStep s = .next t) :
    ChunkEffect (takeInput s) t := by
  have hstored {start : Nat} (h : lengthTest (storeChunk start c (takeInput s)) = .next t) : ChunkEffect (takeInput s) t :=
    let ⟨surroundings, input, events⟩ := lengthTest_effect h
    ⟨surroundings, input, events⟩
  rcases execRsmStep_cases hc with ⟨-, heq⟩ | ⟨-, heq⟩ | ⟨-, -, heq⟩ | ⟨-, -, heq⟩
  · exact (next_iff _ _).1 (heq.symm.trans ht) ▸ .refl _
  · obtain rfl := (next_iff _ _).1 (heq.symm.trans ht)
    exact ⟨⟨rfl, rfl, rfl, rfl⟩, rfl, .inl rfl⟩
  · exact hstored (heq.symm.trans ht)
  · exact hstored (heq.symm.trans ht)

/-! A chunk step completes. -/

/-- An appended frame-so-far that is long enough to be compared holds the lengths. -/
theorem Appended.exists_vlen {s : State} (h : Appended s) (h6 : 6 < s.flen) : ∃ v, vlen s = some v := by
  have hcap := cfgWf_bufCap h.cfg
  obtain ⟨head, hread⟩ := memReadBytes_of_isSome s.mem 0 4 fun k hk => h.held _ (by omega) (by omega)
  exact ⟨_, by rw [vlen, hread, Option.map_some]⟩

theorem lengthTest_completes {s : State} (h : Appended s) : ∃ t, lengthTest s = .next t := by
  rcases Nat.lt_or_ge 6 s.flen with h6 | h6
  · obtain ⟨v, hv⟩ := h.exists_vlen h6
    rcases Nat.lt_or_ge v s.flen with hlt | hle
    · exact ⟨_, (lengthTest_overrun h6 hv hlt).trans (exec_rsmOverrun_over h6 hv hlt)⟩
    · obtain ⟨t, ht, -⟩ := lengthTest_noOverrun h (hle.trans (vlen_le hv)) fun w hw => Option.some.inj (hv.symm.trans hw) ▸ hle
      exact ⟨t, ht⟩
  · exact ⟨s, lengthTest_wait (.inl h6)⟩

theorem execRsmStep_completes {s : State} {c : Bytes} (h : Inv s) (hc : offeredChunk s = some c) :
    ∃ t, execRsmStep s = .next t := by
  have hs := takeInput_inv h
  rcases execRsmStep_cases hc with ⟨-, heq⟩ | ⟨-, heq⟩ | ⟨-, hsync, heq⟩ | ⟨hacc, hne, heq⟩
  · exact ⟨_, heq⟩
  · exact ⟨_, heq⟩
  · exact heq ▸ lengthTest_completes (storeChunk_start_appended hs.canonical hsync)
  · exact heq ▸ lengthTest_completes (storeChunk_append_appended hs hacc hne)

/-- Settles O51: under the invariant the length test finds every byte that it reads, and the chunk step has its effect. -/
theorem everyChunkCompletes : Obligations.EveryChunkCompletes := by
  intro s c rest hinv hin
  have hc := offeredChunk_eq_some hin
  obtain ⟨t, ht⟩ := execRsmStep_completes hinv hc
  obtain ⟨hsame, hinput, -⟩ := execRsmStep_effect hc ht
  rw [takeInput_eq hin] at hinput hsame
  exact ⟨t, ht, (step_chunk hin).trans ht, hinput, hsame⟩

/-! The other inputs and `TEL_OUT`. -/

theorem HostEffect.telOut {s t : State} (h : HostEffect s t) : t.telOut = s.telOut := by
  rcases h with ⟨r, rfl⟩ | ⟨d, rfl⟩ <;> rfl

/-- Settles O52, by the next input: only the hand-over in a chunk step emits, and only a reset takes events back. -/
theorem eventsComeInPairs : Obligations.EventsComeInPairs := by
  intro s t ht
  rw [step_eq] at ht
  rcases hin : s.input with _ | ⟨x, rest⟩ <;> rw [hin] at ht
  case nil => exact .inr (.inl ((next_iff _ _).1 ht ▸ rfl))
  case cons =>
    cases x with
    | chunk c => exact .inr (execRsmStep_effect (offeredChunk_eq_some hin) ht).events
    | port i =>
      obtain ⟨r, rfl⟩ := portStep_next ht
      exact .inr (.inl rfl)
    | teach req => exact .inr (.inl ((next_iff _ _).1 ht ▸ (teach_effect req (takeInput s)).telOut))
    | rename id name => exact .inr (.inl ((next_iff _ _).1 ht ▸ (rename_effect id name (takeInput s)).telOut))
    | get id => exact .inr (.inl ((next_iff _ _).1 ht ▸ (getDevice_effect id (takeInput s)).telOut))
    | getAll => exact .inr (.inl ((next_iff _ _).1 ht ▸ (getAll_effect (takeInput s)).telOut))
    | reset => exact .inl ⟨rest, rfl⟩

end Sys2Proof.Machine
end

section
/-! PROOFS. The reasons of a frame in their fixed order (spec/60_exceptions.md R261, R274): the header CRC, the sub-frame CRC, one reason
that ends the radio decode or the dispatch, the data CRC. -/

namespace Sys2Proof.Machine

/-! The reasons, by the test that records them. -/

/-- The reasons that end the radio decode with the opaque result. -/
def radioReasons : List Reason := [.ptypeUnknown, .erp1Short, .erp2Short, .erp2AcReserved, .erp2Eha]

/-- The reasons that end the dispatch with the Unknown Report. -/
def dispatchReasons : List Reason := [.eepAbsent, .eepUnregistered, .eepLength]

/-- What the header check records. -/
def headerReasons (f : Telegram) : List Reason := if f.crc8hOk then [] else [.hdrCrc]

/-- What the sub-frame check records, where there is one. -/
def subReasons (f : Telegram) : List Reason := if f.crcsubOk = some false then [.subCrc] else []

/-- What the data check records. -/
def dataReasons (f : Telegram) : List Reason := if f.crc8dOk then [] else [.dataCrc]

theorem mem_headerReasons {f : Telegram} {q : Reason} (h : q ∈ headerReasons f) : q = .hdrCrc := by
  unfold headerReasons at h
  split at h
  · cases h
  · exact List.mem_singleton.1 h

theorem mem_subReasons {f : Telegram} {q : Reason} (h : q ∈ subReasons f) : q = .subCrc := by
  unfold subReasons at h
  split at h
  · exact List.mem_singleton.1 h
  · cases h

/-- A reason that is not yet in the set is recorded last. -/
theorem withReason_eq_append {why : Option Reason} {rs : List Reason} (h : ∀ q ∈ rs, why ≠ some q) :
    withReason why rs = rs ++ why.toList := by
  cases why with
  | none => exact (List.append_nil rs).symm
  | some w => exact if_neg fun hmem => h w hmem rfl

/-! Up to the end of the radio decode the checks before it have recorded their reasons, and nothing else has been recorded. -/

/-- The registers of the reasons and of the checks made before the radio decode ends. -/
def checkRegisters (f : Telegram) : Bool × Option Bool × List Reason := (f.crc8hOk, f.crcsubOk, f.reason)

/-- The reasons are those of the header check and the sub-frame check. -/
def ChecksRecorded (f : Telegram) : Prop := f.reason = headerReasons f ++ subReasons f

theorem ChecksRecorded.congr {f g : Telegram} (h : ChecksRecorded f) (hcheck : checkRegisters g = checkRegisters f) :
    ChecksRecorded g := by
  simp only [checkRegisters, Prod.mk.injEq] at hcheck
  obtain ⟨hheader, hsub, hreason⟩ := hcheck
  unfold ChecksRecorded headerReasons subReasons at *
  rwa [hheader, hsub, hreason]

/-- The other reasons are none of the two checks'. -/
theorem ChecksRecorded.ne_of_mem {f : Telegram} (h : ChecksRecorded f) {w : Reason} (hheader : w ≠ .hdrCrc) (hsub : w ≠ .subCrc) :
    ∀ q ∈ f.reason, w ≠ q := by
  intro q hq
  rw [h, List.mem_append] at hq
  rcases hq with hq | hq
  · exact mem_headerReasons hq ▸ hheader
  · exact mem_subReasons hq ▸ hsub

/-- Where there is no sub-frame check. -/
theorem checksRecorded_of_noSub {f : Telegram} (h : f.reason = headerReasons f) (hsub : f.crcsubOk = none) : ChecksRecorded f := by
  rw [ChecksRecorded, subReasons, hsub, if_neg nofun, List.append_nil, h]

theorem checksRecorded_subcrcFields (c : Config) {f : Telegram} (h : f.reason = headerReasons f) :
    ChecksRecorded (subcrcFields c f) := by
  have hnew : ∀ q ∈ f.reason, (if subCrcOk c.crc8Table (dataBytes f) then none else some Reason.subCrc) ≠ some q := by
    intro q hq
    rw [h] at hq
    rw [mem_headerReasons hq]
    split <;> decide
  have hreason : (subcrcFields c f).reason = _ := withReason_eq_append hnew
  rw [ChecksRecorded, hreason, h]
  unfold subReasons subcrcFields
  cases subCrcOk c.crc8Table (dataBytes f) <;> rfl

theorem checkRegisters_erp2Header (c : Config) (f : Telegram) : checkRegisters (erp2Header c f) = checkRegisters f := by
  unfold erp2Header
  split <;> rfl

theorem erp2Guard_radioReason {c : Config} {d : Bytes} {w : Reason} (h : erp2Guard c d = .error w) : w ∈ radioReasons := by
  unfold erp2Guard at h
  split at h
  case isTrue => cases h; decide
  case isFalse =>
    split at h
    case h_1 => cases h; decide
    case h_2 row _ =>
      split at h
      case isTrue => cases h; decide
      case isFalse =>
        split at h
        case isTrue => cases h; decide
        case isFalse => cases h

/-- The registers at the end of a radio decode: the checks have recorded their reasons, and if the region is turned away it is for one of
the reasons that end the decode. -/
structure ReasonsPrepared (p : Telegram × Option Reason) : Prop where
  checks : ChecksRecorded p.1
  turnedAway : ∀ w, p.2 = some w → w ∈ radioReasons

theorem reasonsPrepared_erp2Rest (c : Config) {f : Telegram} (h : ChecksRecorded f) : ReasonsPrepared (erp2Rest c f) := by
  cases hguard : erp2Guard c (dataBytes f) with
  | error w =>
    rw [erp2Rest_error hguard]
    exact ⟨h, fun w' hw => Option.some.inj hw ▸ erp2Guard_radioReason hguard⟩
  | ok row =>
    rw [erp2Rest_ok hguard]
    exact ⟨h.congr (g := erp2Sliced c row f) rfl, nofun⟩

theorem reasonsPrepared_erp1Prepare (c : Config) {f : Telegram} (h : f.reason = headerReasons f) :
    ReasonsPrepared (erp1Prepare c f) := by
  unfold erp1Prepare
  dsimp only
  split
  · exact ⟨checksRecorded_of_noSub h rfl, nofun⟩
  · exact ⟨checksRecorded_of_noSub h rfl, by rintro _ ⟨⟩; decide⟩

theorem reasonsPrepared_rowPrepare (c : Config) {f : Telegram} (h : f.reason = headerReasons f) :
    ReasonsPrepared (rowPrepare c f) := by
  unfold rowPrepare
  split
  · exact reasonsPrepared_erp2Rest c
      ((checksRecorded_subcrcFields c (f := selectData .erp2 f) h).congr (checkRegisters_erp2Header c _))
  · split
    · exact reasonsPrepared_erp1Prepare c (f := selectData .erp1 f) h
    · exact ⟨checksRecorded_of_noSub h rfl, by rintro _ ⟨⟩; decide⟩

/-! The end of the radio decode records one reason or none. -/

theorem dispatch_reason (cfg : Config) (e : Option Eep) (p : Bytes) {w : Reason} (h : (dispatch cfg e p).2 = some w) :
    w ∈ dispatchReasons := by
  rcases dispatch_cases cfg e p with ⟨-, heq⟩ | ⟨_, -, -, heq⟩ | ⟨_, _, -, -, -, heq⟩ | ⟨_, _, -, -, -, heq⟩
  all_goals
    rw [heq] at h
    cases h
  all_goals decide

theorem checkRegisters_payloadMessage (cfg : Config) (f : Telegram) :
    ∃ why, (∀ w, why = some w → w ∈ dispatchReasons) ∧
      checkRegisters (payloadMessage cfg f) = (f.crc8hOk, f.crcsubOk, withReason why f.reason) := by
  cases hti : f.ti with
  | some ti => exact ⟨none, nofun, by rw [payloadMessage_teachIn cfg hti]; rfl⟩
  | none => exact ⟨_, fun w hw => dispatch_reason cfg f.eep (dlBytes f) hw, by rw [payloadMessage_dispatch cfg hti]; rfl⟩

/-- The registers `f` are those of a radio decode that has ended with this reason, or with none. -/
structure RadioEnded (why : Option Reason) (f : Telegram) : Prop where
  reason : f.reason = headerReasons f ++ (subReasons f ++ why.toList)
  listed : ∀ w, why = some w → w ∈ radioReasons ++ dispatchReasons
  isOpaque : f.isOpaque = true ↔ ∃ w, why = some w ∧ w ∈ radioReasons

theorem ne_checkReason {w : Reason} (h : w ∈ radioReasons ++ dispatchReasons) : w ≠ .hdrCrc ∧ w ≠ .subCrc ∧ w ≠ .dataCrc := by
  have hall : ∀ q ∈ radioReasons ++ dispatchReasons, q ≠ .hdrCrc ∧ q ≠ .subCrc ∧ q ≠ .dataCrc := by decide
  exact hall w h

/-- One more reason, recorded after those of the checks. -/
theorem ChecksRecorded.record {f g : Telegram} {why : Option Reason} (h : ChecksRecorded f)
    (hlisted : ∀ w, why = some w → w ∈ radioReasons ++ dispatchReasons)
    (hcheck : checkRegisters g = (f.crc8hOk, f.crcsubOk, withReason why f.reason)) :
    g.reason = headerReasons g ++ (subReasons g ++ why.toList) := by
  have hnew : ∀ q ∈ f.reason, why ≠ some q := by
    intro q hq hwhy
    obtain ⟨hheader, hsub, -⟩ := ne_checkReason (hlisted q hwhy)
    exact h.ne_of_mem hheader hsub q hq rfl
  simp only [checkRegisters, Prod.mk.injEq] at hcheck
  obtain ⟨hheader, hsub, hreason⟩ := hcheck
  rw [hreason, withReason_eq_append hnew, h, List.append_assoc, headerReasons, headerReasons, subReasons, subReasons, hheader, hsub]

/-- A region that is turned away is recorded with its reason, and one that is sliced with that of the dispatch, if it degrades. -/
theorem radioEnded_endRadio (c : Config) (reg : List RegDevice) {p : Telegram × Option Reason} (hp : ReasonsPrepared p)
    (hclear : p.1.isOpaque = false) : ∃ why, RadioEnded why (endRadio c reg p) := by
  cases hend : p.2 with
  | some w =>
    have hw := hp.turnedAway w hend
    have hlisted : ∀ v, some w = some v → v ∈ radioReasons ++ dispatchReasons :=
      fun v hv => Option.some.inj hv ▸ List.mem_append_left _ hw
    rw [endRadio_turnedAway hend]
    exact ⟨some w, hp.checks.record hlisted rfl, hlisted, fun _ => ⟨w, rfl, hw⟩, fun _ => rfl⟩
  | none =>
    rw [endRadio_sliced hend]
    generalize p.1.oid.getD 0 = id
    obtain ⟨why, hwhy, hcheck⟩ := checkRegisters_payloadMessage c (resolveEep (regLookup reg id) p.1)
    have hlisted : ∀ w, why = some w → w ∈ radioReasons ++ dispatchReasons :=
      fun w hw => List.mem_append_right _ (hwhy w hw)
    refine ⟨why, hp.checks.record hlisted hcheck, hlisted, ?_⟩
    rw [isOpaque_finishRadio, hclear]
    refine ⟨nofun, fun ⟨w, hw, hradio⟩ => ?_⟩
    have hdisjoint : ∀ q ∈ dispatchReasons, q ∉ radioReasons := by decide
    exact absurd hradio (hdisjoint w (hwhy w hw))

/-! The record. -/

theorem reason_startFields (c : Config) (frame : Bytes) : (startFields c frame).reason = headerReasons (startFields c frame) := by
  rw [startFields_eq, headerReasons]
  simp only [decide_eq_true_eq]

/-- The data check records its reason last. -/
theorem RadioEnded.reason_closeFields {why : Option Reason} {f : Telegram} (h : RadioEnded why f) (c : Config) :
    (closeFields c f).reason = headerReasons f ++ (subReasons f ++ (why.toList ++ dataReasons (closeFields c f))) := by
  have hnew (p : Prop) [Decidable p] : ∀ q ∈ f.reason, (if p then none else some Reason.dataCrc) ≠ some q := by
    intro q hq
    have hdata : q ≠ .dataCrc := by
      rw [h.reason, List.mem_append, List.mem_append] at hq
      rcases hq with hq | hq | hq
      · exact mem_headerReasons hq ▸ nofun
      · exact mem_subReasons hq ▸ nofun
      · exact (ne_checkReason (h.listed q (Option.mem_toList.1 hq))).2.2
    split
    · exact nofun
    · exact fun hn => hdata (Option.some.inj hn).symm
  have hreason : (closeFields c f).reason = _ := withReason_eq_append (hnew _)
  rw [hreason, h.reason]
  simp only [dataReasons, closeFields, decide_eq_true_eq, List.append_assoc]
  split <;> rfl

/-- Settles O55: the header check, the sub-frame check, the end of the radio decode and the data check record their reasons one after
the other, and only the end of the radio decode makes a record opaque. -/
theorem reasonsFollowTheFixedOrder : Obligations.ReasonsFollowTheFixedOrder := by
  intro cfg reg frame r hdec
  rw [decodeFrame_eq] at hdec
  split at hdec
  case isFalse => cases hdec
  case isTrue =>
    obtain rfl := Option.some.inj hdec
    obtain ⟨k, hprep⟩ := prepared_rowPrepare cfg (startFields cfg frame)
    obtain ⟨why, hended⟩ := radioEnded_endRadio cfg reg (reasonsPrepared_rowPrepare cfg (reason_startFields cfg frame))
      (hprep.isOpaque.trans (isOpaque_startFields cfg frame))
    refine ⟨why.toList, hended.reason_closeFields cfg, Option.length_toList_le, fun q hq => ?_, ?_⟩
    · exact hended.listed q (Option.mem_toList.1 hq)
    · simp only [Option.mem_toList]
      exact hended.isOpaque

end Sys2Proof.Machine
end
